-- ==== Sys2Proof/Word.lean ====
section
/-! DEFINITION. The words of the block: widths only (spec/00_scope.md R8-R13). -/

namespace Sys2Proof

/-- One byte of memory (R155). -/
abbrev Byte := BitVec 8

/-- A word: 32 bits, the width of every integer register, of the program counter and of an instruction (R8-R10). -/
abbrev Word := BitVec 32

/-- A floating-point register: FLEN = 64 bits (R70). -/
abbrev DWord := BitVec 64

/-- A register number, 0 to 31 (R250). -/
abbrev Reg := BitVec 5

/-- A CSR number, 0 to 4095 (R257). -/
abbrev CsrNum := BitVec 12

/-- The five accrued exception flags NV, DZ, OF, UF, NX, bits 4 to 0 (R92). -/
abbrev Fflags := BitVec 5

end Sys2Proof
end

