-- ==== Sys2Proof/Syntax.lean ====
section
/-! DEFINITION. The instructions: one constructor per row of spec/opcode_table.json, in the table's order
(30_encoding.md R231, R239, R250-R258). An operand is the value the decoder extracts, before any extension:
the I- and S-immediates are the 12 bits of the word, the B- and J-immediates are the byte offsets with their
bit 0, the U-immediate is the 32-bit value with its twelve low zeros. -/

namespace Sys2Proof

/-- The seven instruction formats (R231). -/
inductive Format where
  | R | R4 | I | S | B | U | J
  deriving DecidableEq, Repr

/-- An instruction with its operands (R17). -/
inductive Instr where
  -- Integer computational instructions, 40_integer.md
  | lui (rd : Reg) (imm : Word)
  | auipc (rd : Reg) (imm : Word)
  | addi (rd rs1 : Reg) (imm : BitVec 12)
  | slti (rd rs1 : Reg) (imm : BitVec 12)
  | sltiu (rd rs1 : Reg) (imm : BitVec 12)
  | xori (rd rs1 : Reg) (imm : BitVec 12)
  | ori (rd rs1 : Reg) (imm : BitVec 12)
  | andi (rd rs1 : Reg) (imm : BitVec 12)
  | slli (rd rs1 : Reg) (shamt : BitVec 5)
  | srli (rd rs1 : Reg) (shamt : BitVec 5)
  | srai (rd rs1 : Reg) (shamt : BitVec 5)
  | add (rd rs1 rs2 : Reg)
  | sub (rd rs1 rs2 : Reg)
  | sll (rd rs1 rs2 : Reg)
  | slt (rd rs1 rs2 : Reg)
  | sltu (rd rs1 rs2 : Reg)
  | xor (rd rs1 rs2 : Reg)
  | srl (rd rs1 rs2 : Reg)
  | sra (rd rs1 rs2 : Reg)
  | or (rd rs1 rs2 : Reg)
  | and (rd rs1 rs2 : Reg)
  -- Control transfer, 41_control.md
  | jal (rd : Reg) (imm : BitVec 21)
  | jalr (rd rs1 : Reg) (imm : BitVec 12)
  | beq (rs1 rs2 : Reg) (imm : BitVec 13)
  | bne (rs1 rs2 : Reg) (imm : BitVec 13)
  | blt (rs1 rs2 : Reg) (imm : BitVec 13)
  | bge (rs1 rs2 : Reg) (imm : BitVec 13)
  | bltu (rs1 rs2 : Reg) (imm : BitVec 13)
  | bgeu (rs1 rs2 : Reg) (imm : BitVec 13)
  -- Integer loads and stores, 42_loadstore.md
  | lb (rd rs1 : Reg) (imm : BitVec 12)
  | lh (rd rs1 : Reg) (imm : BitVec 12)
  | lw (rd rs1 : Reg) (imm : BitVec 12)
  | lbu (rd rs1 : Reg) (imm : BitVec 12)
  | lhu (rd rs1 : Reg) (imm : BitVec 12)
  | sb (rs1 rs2 : Reg) (imm : BitVec 12)
  | sh (rs1 rs2 : Reg) (imm : BitVec 12)
  | sw (rs1 rs2 : Reg) (imm : BitVec 12)
  -- Multiply and divide, 43_muldiv.md
  | mul (rd rs1 rs2 : Reg)
  | mulh (rd rs1 rs2 : Reg)
  | mulhsu (rd rs1 rs2 : Reg)
  | mulhu (rd rs1 rs2 : Reg)
  | div (rd rs1 rs2 : Reg)
  | divu (rd rs1 rs2 : Reg)
  | rem (rd rs1 rs2 : Reg)
  | remu (rd rs1 rs2 : Reg)
  -- System, fence and CSR instructions, 44_system.md
  | fence (pred succ : BitVec 4)
  | fenceI
  | ecall
  | ebreak
  | uret
  | wfi
  | csrrw (rd : Reg) (csr : CsrNum) (rs1 : Reg)
  | csrrs (rd : Reg) (csr : CsrNum) (rs1 : Reg)
  | csrrc (rd : Reg) (csr : CsrNum) (rs1 : Reg)
  | csrrwi (rd : Reg) (csr : CsrNum) (uimm : BitVec 5)
  | csrrsi (rd : Reg) (csr : CsrNum) (uimm : BitVec 5)
  | csrrci (rd : Reg) (csr : CsrNum) (uimm : BitVec 5)
  -- Single precision, 45_float_single.md
  | flw (rd rs1 : Reg) (imm : BitVec 12)
  | fsw (rs1 rs2 : Reg) (imm : BitVec 12)
  | fmaddS (rd rs1 rs2 rs3 : Reg) (rm : BitVec 3)
  | fmsubS (rd rs1 rs2 rs3 : Reg) (rm : BitVec 3)
  | fnmsubS (rd rs1 rs2 rs3 : Reg) (rm : BitVec 3)
  | fnmaddS (rd rs1 rs2 rs3 : Reg) (rm : BitVec 3)
  | faddS (rd rs1 rs2 : Reg) (rm : BitVec 3)
  | fsubS (rd rs1 rs2 : Reg) (rm : BitVec 3)
  | fmulS (rd rs1 rs2 : Reg) (rm : BitVec 3)
  | fdivS (rd rs1 rs2 : Reg) (rm : BitVec 3)
  | fsqrtS (rd rs1 : Reg) (rm : BitVec 3)
  | fsgnjS (rd rs1 rs2 : Reg)
  | fsgnjnS (rd rs1 rs2 : Reg)
  | fsgnjxS (rd rs1 rs2 : Reg)
  | fminS (rd rs1 rs2 : Reg)
  | fmaxS (rd rs1 rs2 : Reg)
  | feqS (rd rs1 rs2 : Reg)
  | fltS (rd rs1 rs2 : Reg)
  | fleS (rd rs1 rs2 : Reg)
  | fclassS (rd rs1 : Reg)
  | fcvtWS (rd rs1 : Reg) (rm : BitVec 3)
  | fcvtWuS (rd rs1 : Reg) (rm : BitVec 3)
  | fcvtSW (rd rs1 : Reg) (rm : BitVec 3)
  | fcvtSWu (rd rs1 : Reg) (rm : BitVec 3)
  | fmvXW (rd rs1 : Reg)
  | fmvWX (rd rs1 : Reg)
  -- Double precision, 46_float_double.md
  | fld (rd rs1 : Reg) (imm : BitVec 12)
  | fsd (rs1 rs2 : Reg) (imm : BitVec 12)
  | fmaddD (rd rs1 rs2 rs3 : Reg) (rm : BitVec 3)
  | fmsubD (rd rs1 rs2 rs3 : Reg) (rm : BitVec 3)
  | fnmsubD (rd rs1 rs2 rs3 : Reg) (rm : BitVec 3)
  | fnmaddD (rd rs1 rs2 rs3 : Reg) (rm : BitVec 3)
  | faddD (rd rs1 rs2 : Reg) (rm : BitVec 3)
  | fsubD (rd rs1 rs2 : Reg) (rm : BitVec 3)
  | fmulD (rd rs1 rs2 : Reg) (rm : BitVec 3)
  | fdivD (rd rs1 rs2 : Reg) (rm : BitVec 3)
  | fsqrtD (rd rs1 : Reg) (rm : BitVec 3)
  | fsgnjD (rd rs1 rs2 : Reg)
  | fsgnjnD (rd rs1 rs2 : Reg)
  | fsgnjxD (rd rs1 rs2 : Reg)
  | fminD (rd rs1 rs2 : Reg)
  | fmaxD (rd rs1 rs2 : Reg)
  | fcvtSD (rd rs1 : Reg) (rm : BitVec 3)
  | fcvtDS (rd rs1 : Reg) (rm : BitVec 3)
  | feqD (rd rs1 rs2 : Reg)
  | fltD (rd rs1 rs2 : Reg)
  | fleD (rd rs1 rs2 : Reg)
  | fclassD (rd rs1 : Reg)
  | fcvtWD (rd rs1 : Reg) (rm : BitVec 3)
  | fcvtWuD (rd rs1 : Reg) (rm : BitVec 3)
  | fcvtDW (rd rs1 : Reg) (rm : BitVec 3)
  | fcvtDWu (rd rs1 : Reg) (rm : BitVec 3)
  deriving DecidableEq, Repr

end Sys2Proof
end

