-- ==== Sys2Proof/WellFormed.lean ====
section
/-! DEFINITION. The checks an instruction's operands must pass to have an encoding: a branch or jump offset is
even (30_encoding.md R253, R255) and an upper immediate has twelve low zeros (R254). Every other operand is a
field of the word at its own width, and every value of it is legal (R267, 44_system.md R422). -/

namespace Sys2Proof

/-- A B- or J-immediate is even: its bit 0 is no bit of the word (R253, R255). -/
def evenOffset (imm : BitVec n) : Bool := !imm.getLsbD 0

/-- A U-immediate has its low twelve bits clear (R254). -/
def upperOnly (imm : Word) : Bool := imm.setWidth 12 == 0

/-- The instruction has an encoding. -/
def wellFormed : Instr → Bool
  | .lui _ imm => upperOnly imm
  | .auipc _ imm => upperOnly imm
  | .addi _ _ _ => true
  | .slti _ _ _ => true
  | .sltiu _ _ _ => true
  | .xori _ _ _ => true
  | .ori _ _ _ => true
  | .andi _ _ _ => true
  | .slli _ _ _ => true
  | .srli _ _ _ => true
  | .srai _ _ _ => true
  | .add _ _ _ => true
  | .sub _ _ _ => true
  | .sll _ _ _ => true
  | .slt _ _ _ => true
  | .sltu _ _ _ => true
  | .xor _ _ _ => true
  | .srl _ _ _ => true
  | .sra _ _ _ => true
  | .or _ _ _ => true
  | .and _ _ _ => true
  | .jal _ imm => evenOffset imm
  | .jalr _ _ _ => true
  | .beq _ _ imm => evenOffset imm
  | .bne _ _ imm => evenOffset imm
  | .blt _ _ imm => evenOffset imm
  | .bge _ _ imm => evenOffset imm
  | .bltu _ _ imm => evenOffset imm
  | .bgeu _ _ imm => evenOffset imm
  | .lb _ _ _ => true
  | .lh _ _ _ => true
  | .lw _ _ _ => true
  | .lbu _ _ _ => true
  | .lhu _ _ _ => true
  | .sb _ _ _ => true
  | .sh _ _ _ => true
  | .sw _ _ _ => true
  | .mul _ _ _ => true
  | .mulh _ _ _ => true
  | .mulhsu _ _ _ => true
  | .mulhu _ _ _ => true
  | .div _ _ _ => true
  | .divu _ _ _ => true
  | .rem _ _ _ => true
  | .remu _ _ _ => true
  | .fence _ _ => true
  | .fenceI => true
  | .ecall => true
  | .ebreak => true
  | .uret => true
  | .wfi => true
  | .csrrw _ _ _ => true
  | .csrrs _ _ _ => true
  | .csrrc _ _ _ => true
  | .csrrwi _ _ _ => true
  | .csrrsi _ _ _ => true
  | .csrrci _ _ _ => true
  | .flw _ _ _ => true
  | .fsw _ _ _ => true
  | .fmaddS _ _ _ _ _ => true
  | .fmsubS _ _ _ _ _ => true
  | .fnmsubS _ _ _ _ _ => true
  | .fnmaddS _ _ _ _ _ => true
  | .faddS _ _ _ _ => true
  | .fsubS _ _ _ _ => true
  | .fmulS _ _ _ _ => true
  | .fdivS _ _ _ _ => true
  | .fsqrtS _ _ _ => true
  | .fsgnjS _ _ _ => true
  | .fsgnjnS _ _ _ => true
  | .fsgnjxS _ _ _ => true
  | .fminS _ _ _ => true
  | .fmaxS _ _ _ => true
  | .feqS _ _ _ => true
  | .fltS _ _ _ => true
  | .fleS _ _ _ => true
  | .fclassS _ _ => true
  | .fcvtWS _ _ _ => true
  | .fcvtWuS _ _ _ => true
  | .fcvtSW _ _ _ => true
  | .fcvtSWu _ _ _ => true
  | .fmvXW _ _ => true
  | .fmvWX _ _ => true
  | .fld _ _ _ => true
  | .fsd _ _ _ => true
  | .fmaddD _ _ _ _ _ => true
  | .fmsubD _ _ _ _ _ => true
  | .fnmsubD _ _ _ _ _ => true
  | .fnmaddD _ _ _ _ _ => true
  | .faddD _ _ _ _ => true
  | .fsubD _ _ _ _ => true
  | .fmulD _ _ _ _ => true
  | .fdivD _ _ _ _ => true
  | .fsqrtD _ _ _ => true
  | .fsgnjD _ _ _ => true
  | .fsgnjnD _ _ _ => true
  | .fsgnjxD _ _ _ => true
  | .fminD _ _ _ => true
  | .fmaxD _ _ _ => true
  | .fcvtSD _ _ _ => true
  | .fcvtDS _ _ _ => true
  | .feqD _ _ _ => true
  | .fltD _ _ _ => true
  | .fleD _ _ _ => true
  | .fclassD _ _ => true
  | .fcvtWD _ _ _ => true
  | .fcvtWuD _ _ _ => true
  | .fcvtDW _ _ _ => true
  | .fcvtDWu _ _ _ => true

end Sys2Proof
end

