-- ==== Sys2Proof/Decode.lean ====
section
/-! DEFINITION. The opcode decoder (30_encoding.md): the descriptors of spec/opcode_table.json, the decoding
procedure over mask/match tables (R239-R245), and the encoder (R246). -/

namespace Sys2Proof

/-! ## Operand fields (R250-R258) -/

/-- R250. -/
def rdOf (w : Word) : Reg := w.extractLsb' 7 5
/-- R250; the same bits are `uimm` (R257). -/
def rs1Of (w : Word) : Reg := w.extractLsb' 15 5
/-- R250. -/
def rs2Of (w : Word) : Reg := w.extractLsb' 20 5
/-- R250. -/
def rs3Of (w : Word) : Reg := w.extractLsb' 27 5
/-- R256. -/
def shamtOf (w : Word) : BitVec 5 := w.extractLsb' 20 5
/-- R257. -/
def csrOf (w : Word) : CsrNum := w.extractLsb' 20 12
/-- R258. -/
def rmOf (w : Word) : BitVec 3 := w.extractLsb' 12 3
/-- R258. -/
def predOf (w : Word) : BitVec 4 := w.extractLsb' 24 4
/-- R258. -/
def succOf (w : Word) : BitVec 4 := w.extractLsb' 20 4
/-- R251, before the sign extension. -/
def immI (w : Word) : BitVec 12 := w.extractLsb' 20 12
/-- R252, before the sign extension. -/
def immS (w : Word) : BitVec 12 := w.extractLsb' 25 7 ++ w.extractLsb' 7 5
/-- R253, before the sign extension. -/
def immB (w : Word) : BitVec 13 :=
  w.extractLsb' 31 1 ++ w.extractLsb' 7 1 ++ w.extractLsb' 25 6 ++ w.extractLsb' 8 4 ++ 0#1
/-- R254. -/
def immU (w : Word) : Word := w.extractLsb' 12 20 ++ 0#12
/-- R255, before the sign extension. -/
def immJ (w : Word) : BitVec 21 :=
  w.extractLsb' 31 1 ++ w.extractLsb' 12 8 ++ w.extractLsb' 20 1 ++ w.extractLsb' 21 10 ++ 0#1

/-! ## Behaviours: what a descriptor can be bound to (R239) -/

/-- The executable behaviours, by name: one per row of spec/opcode_table.json. -/
inductive Op where
  | lui | auipc | addi | slti | sltiu | xori | ori | andi | slli | srli | srai | add | sub | sll | slt | sltu
  | xor | srl | sra | or | and | jal | jalr | beq | bne | blt | bge | bltu | bgeu | lb | lh | lw | lbu | lhu
  | sb | sh | sw | mul | mulh | mulhsu | mulhu | div | divu | rem | remu | fence | fenceI | ecall | ebreak
  | uret | wfi | csrrw | csrrs | csrrc | csrrwi | csrrsi | csrrci | flw | fsw | fmaddS | fmsubS | fnmsubS
  | fnmaddS | faddS | fsubS | fmulS | fdivS | fsqrtS | fsgnjS | fsgnjnS | fsgnjxS | fminS | fmaxS | feqS
  | fltS | fleS | fclassS | fcvtWS | fcvtWuS | fcvtSW | fcvtSWu | fmvXW | fmvWX | fld | fsd | fmaddD | fmsubD
  | fnmsubD | fnmaddD | faddD | fsubD | fmulD | fdivD | fsqrtD | fsgnjD | fsgnjnD | fsgnjxD | fminD | fmaxD
  | fcvtSD | fcvtDS | feqD | fltD | fleD | fclassD | fcvtWD | fcvtWuD | fcvtDW | fcvtDWu
  deriving DecidableEq, Repr

/-- The instruction of a behaviour with the operands of a word, each from its field (R17, R247, R250-R258). -/
def Op.build (op : Op) (w : Word) : Instr :=
  match op with
  | .lui => .lui (rdOf w) (immU w)
  | .auipc => .auipc (rdOf w) (immU w)
  | .addi => .addi (rdOf w) (rs1Of w) (immI w)
  | .slti => .slti (rdOf w) (rs1Of w) (immI w)
  | .sltiu => .sltiu (rdOf w) (rs1Of w) (immI w)
  | .xori => .xori (rdOf w) (rs1Of w) (immI w)
  | .ori => .ori (rdOf w) (rs1Of w) (immI w)
  | .andi => .andi (rdOf w) (rs1Of w) (immI w)
  | .slli => .slli (rdOf w) (rs1Of w) (shamtOf w)
  | .srli => .srli (rdOf w) (rs1Of w) (shamtOf w)
  | .srai => .srai (rdOf w) (rs1Of w) (shamtOf w)
  | .add => .add (rdOf w) (rs1Of w) (rs2Of w)
  | .sub => .sub (rdOf w) (rs1Of w) (rs2Of w)
  | .sll => .sll (rdOf w) (rs1Of w) (rs2Of w)
  | .slt => .slt (rdOf w) (rs1Of w) (rs2Of w)
  | .sltu => .sltu (rdOf w) (rs1Of w) (rs2Of w)
  | .xor => .xor (rdOf w) (rs1Of w) (rs2Of w)
  | .srl => .srl (rdOf w) (rs1Of w) (rs2Of w)
  | .sra => .sra (rdOf w) (rs1Of w) (rs2Of w)
  | .or => .or (rdOf w) (rs1Of w) (rs2Of w)
  | .and => .and (rdOf w) (rs1Of w) (rs2Of w)
  | .jal => .jal (rdOf w) (immJ w)
  | .jalr => .jalr (rdOf w) (rs1Of w) (immI w)
  | .beq => .beq (rs1Of w) (rs2Of w) (immB w)
  | .bne => .bne (rs1Of w) (rs2Of w) (immB w)
  | .blt => .blt (rs1Of w) (rs2Of w) (immB w)
  | .bge => .bge (rs1Of w) (rs2Of w) (immB w)
  | .bltu => .bltu (rs1Of w) (rs2Of w) (immB w)
  | .bgeu => .bgeu (rs1Of w) (rs2Of w) (immB w)
  | .lb => .lb (rdOf w) (rs1Of w) (immI w)
  | .lh => .lh (rdOf w) (rs1Of w) (immI w)
  | .lw => .lw (rdOf w) (rs1Of w) (immI w)
  | .lbu => .lbu (rdOf w) (rs1Of w) (immI w)
  | .lhu => .lhu (rdOf w) (rs1Of w) (immI w)
  | .sb => .sb (rs1Of w) (rs2Of w) (immS w)
  | .sh => .sh (rs1Of w) (rs2Of w) (immS w)
  | .sw => .sw (rs1Of w) (rs2Of w) (immS w)
  | .mul => .mul (rdOf w) (rs1Of w) (rs2Of w)
  | .mulh => .mulh (rdOf w) (rs1Of w) (rs2Of w)
  | .mulhsu => .mulhsu (rdOf w) (rs1Of w) (rs2Of w)
  | .mulhu => .mulhu (rdOf w) (rs1Of w) (rs2Of w)
  | .div => .div (rdOf w) (rs1Of w) (rs2Of w)
  | .divu => .divu (rdOf w) (rs1Of w) (rs2Of w)
  | .rem => .rem (rdOf w) (rs1Of w) (rs2Of w)
  | .remu => .remu (rdOf w) (rs1Of w) (rs2Of w)
  | .fence => .fence (predOf w) (succOf w)
  | .fenceI => .fenceI
  | .ecall => .ecall
  | .ebreak => .ebreak
  | .uret => .uret
  | .wfi => .wfi
  | .csrrw => .csrrw (rdOf w) (csrOf w) (rs1Of w)
  | .csrrs => .csrrs (rdOf w) (csrOf w) (rs1Of w)
  | .csrrc => .csrrc (rdOf w) (csrOf w) (rs1Of w)
  | .csrrwi => .csrrwi (rdOf w) (csrOf w) (rs1Of w)
  | .csrrsi => .csrrsi (rdOf w) (csrOf w) (rs1Of w)
  | .csrrci => .csrrci (rdOf w) (csrOf w) (rs1Of w)
  | .flw => .flw (rdOf w) (rs1Of w) (immI w)
  | .fsw => .fsw (rs1Of w) (rs2Of w) (immS w)
  | .fmaddS => .fmaddS (rdOf w) (rs1Of w) (rs2Of w) (rs3Of w) (rmOf w)
  | .fmsubS => .fmsubS (rdOf w) (rs1Of w) (rs2Of w) (rs3Of w) (rmOf w)
  | .fnmsubS => .fnmsubS (rdOf w) (rs1Of w) (rs2Of w) (rs3Of w) (rmOf w)
  | .fnmaddS => .fnmaddS (rdOf w) (rs1Of w) (rs2Of w) (rs3Of w) (rmOf w)
  | .faddS => .faddS (rdOf w) (rs1Of w) (rs2Of w) (rmOf w)
  | .fsubS => .fsubS (rdOf w) (rs1Of w) (rs2Of w) (rmOf w)
  | .fmulS => .fmulS (rdOf w) (rs1Of w) (rs2Of w) (rmOf w)
  | .fdivS => .fdivS (rdOf w) (rs1Of w) (rs2Of w) (rmOf w)
  | .fsqrtS => .fsqrtS (rdOf w) (rs1Of w) (rmOf w)
  | .fsgnjS => .fsgnjS (rdOf w) (rs1Of w) (rs2Of w)
  | .fsgnjnS => .fsgnjnS (rdOf w) (rs1Of w) (rs2Of w)
  | .fsgnjxS => .fsgnjxS (rdOf w) (rs1Of w) (rs2Of w)
  | .fminS => .fminS (rdOf w) (rs1Of w) (rs2Of w)
  | .fmaxS => .fmaxS (rdOf w) (rs1Of w) (rs2Of w)
  | .feqS => .feqS (rdOf w) (rs1Of w) (rs2Of w)
  | .fltS => .fltS (rdOf w) (rs1Of w) (rs2Of w)
  | .fleS => .fleS (rdOf w) (rs1Of w) (rs2Of w)
  | .fclassS => .fclassS (rdOf w) (rs1Of w)
  | .fcvtWS => .fcvtWS (rdOf w) (rs1Of w) (rmOf w)
  | .fcvtWuS => .fcvtWuS (rdOf w) (rs1Of w) (rmOf w)
  | .fcvtSW => .fcvtSW (rdOf w) (rs1Of w) (rmOf w)
  | .fcvtSWu => .fcvtSWu (rdOf w) (rs1Of w) (rmOf w)
  | .fmvXW => .fmvXW (rdOf w) (rs1Of w)
  | .fmvWX => .fmvWX (rdOf w) (rs1Of w)
  | .fld => .fld (rdOf w) (rs1Of w) (immI w)
  | .fsd => .fsd (rs1Of w) (rs2Of w) (immS w)
  | .fmaddD => .fmaddD (rdOf w) (rs1Of w) (rs2Of w) (rs3Of w) (rmOf w)
  | .fmsubD => .fmsubD (rdOf w) (rs1Of w) (rs2Of w) (rs3Of w) (rmOf w)
  | .fnmsubD => .fnmsubD (rdOf w) (rs1Of w) (rs2Of w) (rs3Of w) (rmOf w)
  | .fnmaddD => .fnmaddD (rdOf w) (rs1Of w) (rs2Of w) (rs3Of w) (rmOf w)
  | .faddD => .faddD (rdOf w) (rs1Of w) (rs2Of w) (rmOf w)
  | .fsubD => .fsubD (rdOf w) (rs1Of w) (rs2Of w) (rmOf w)
  | .fmulD => .fmulD (rdOf w) (rs1Of w) (rs2Of w) (rmOf w)
  | .fdivD => .fdivD (rdOf w) (rs1Of w) (rs2Of w) (rmOf w)
  | .fsqrtD => .fsqrtD (rdOf w) (rs1Of w) (rmOf w)
  | .fsgnjD => .fsgnjD (rdOf w) (rs1Of w) (rs2Of w)
  | .fsgnjnD => .fsgnjnD (rdOf w) (rs1Of w) (rs2Of w)
  | .fsgnjxD => .fsgnjxD (rdOf w) (rs1Of w) (rs2Of w)
  | .fminD => .fminD (rdOf w) (rs1Of w) (rs2Of w)
  | .fmaxD => .fmaxD (rdOf w) (rs1Of w) (rs2Of w)
  | .fcvtSD => .fcvtSD (rdOf w) (rs1Of w) (rmOf w)
  | .fcvtDS => .fcvtDS (rdOf w) (rs1Of w) (rmOf w)
  | .feqD => .feqD (rdOf w) (rs1Of w) (rs2Of w)
  | .fltD => .fltD (rdOf w) (rs1Of w) (rs2Of w)
  | .fleD => .fleD (rdOf w) (rs1Of w) (rs2Of w)
  | .fclassD => .fclassD (rdOf w) (rs1Of w)
  | .fcvtWD => .fcvtWD (rdOf w) (rs1Of w) (rmOf w)
  | .fcvtWuD => .fcvtWuD (rdOf w) (rs1Of w) (rmOf w)
  | .fcvtDW => .fcvtDW (rdOf w) (rs1Of w) (rmOf w)
  | .fcvtDWu => .fcvtDWu (rdOf w) (rs1Of w) (rmOf w)

/-! ## Descriptors and match tables (R239-R243) -/

/-- A descriptor: mnemonic, usage example, format, mask and match, bound to an executable behaviour (R239). -/
structure Descriptor where
  mnemonic : String
  usage : String
  format : Format
  mask : Word
  pattern : Word
  op : Op
  deriving DecidableEq, Repr

/-- The instruction a descriptor resolves a word to (R247). -/
def Descriptor.build (d : Descriptor) (w : Word) : Instr := d.op.build w

/-- The word is consistent with the descriptor (R239). -/
def Descriptor.accepts (d : Descriptor) (w : Word) : Bool := w &&& d.mask == d.pattern

/-- The descriptors that share one mask (R241). -/
structure MatchTable where
  mask : Word
  rows : List Descriptor

/-- How many bits of a mask are fixed (R241). -/
def popcount (m : Word) : Nat := (List.range 32).countP (fun i => m.getLsbD i)

/-- The table of mask `m` is tried before the table of mask `n`: more fixed bits first, then the smaller mask (R241). -/
def triedBefore (m n : Word) : Bool :=
  popcount n < popcount m || (popcount m == popcount n && m.toNat < n.toNat)

/-- A descriptor put into the table of its mask, the tables kept in the order of R241. -/
def insertRow (d : Descriptor) : List MatchTable → List MatchTable
  | [] => [⟨d.mask, [d]⟩]
  | T :: Ts =>
    if d.mask = T.mask then ⟨T.mask, d :: T.rows⟩ :: Ts
    else if triedBefore d.mask T.mask then ⟨d.mask, [d]⟩ :: T :: Ts
    else T :: insertRow d Ts

/-- The descriptors grouped by identical mask, in order of decreasing fixed bits (R241). -/
def groupTables (ds : List Descriptor) : List MatchTable := ds.foldr insertRow []

/-- Lookup within one table: exact equality on `word & mask` (R242). -/
def MatchTable.lookup (T : MatchTable) (w : Word) : Option Descriptor :=
  let key := w &&& T.mask
  T.rows.find? (fun d => d.pattern == key)

/-- The first table that holds a consistent descriptor decides (R240). -/
def lookupTables (w : Word) : List MatchTable → Option Descriptor
  | [] => none
  | T :: Ts =>
    match T.lookup w with
    | some d => some d
    | none => lookupTables w Ts

/-- Decoding over any descriptor table (R4, R240, R244): the descriptor, or none for NoMatch. -/
def decodeWith (ds : List Descriptor) (w : Word) : Option Descriptor := lookupTables w (groupTables ds)

/-- Two descriptors accept a common word: their matches agree on the bits both masks fix (R243). -/
def Descriptor.overlaps (d e : Descriptor) : Bool := d.pattern &&& e.mask == e.pattern &&& d.mask

/-- One descriptor is well formed: (a) and (b) of R243. -/
def Descriptor.wellFormed (d : Descriptor) : Bool :=
  d.pattern &&& ~~~d.mask == 0 && d.mask &&& 0x7F == 0x7F

/-- Two descriptors of one table may stand together: (c) and (d) of R243. -/
def Descriptor.compatible (d e : Descriptor) : Bool :=
  !(d.mask == e.mask && d.pattern == e.pattern) &&
  !(d.mask != e.mask && popcount d.mask == popcount e.mask && d.overlaps e)

/-- A descriptor table is well formed (R243). -/
def wellFormedTable : List Descriptor → Bool
  | [] => true
  | d :: ds => d.wellFormed && ds.all (d.compatible ·) && wellFormedTable ds

/-- No word matches two descriptors (R243, the property the source tests). -/
def overlapFree : List Descriptor → Bool
  | [] => true
  | d :: ds => ds.all (fun e => !d.overlaps e) && overlapFree ds

/-! ## The reference descriptors, table by table (R241; spec/opcode_table.json) -/

/-- The descriptors of mask 0xFFFFFFFF. -/
def rowsExact : List Descriptor :=
  [
    ⟨"fence.i", "fence.i", .I, 0xFFFFFFFF, 0x0000100F, .fenceI⟩,
    ⟨"ecall", "ecall", .I, 0xFFFFFFFF, 0x00000073, .ecall⟩,
    ⟨"ebreak", "ebreak", .I, 0xFFFFFFFF, 0x00100073, .ebreak⟩,
    ⟨"uret", "uret", .I, 0xFFFFFFFF, 0x00200073, .uret⟩,
    ⟨"wfi", "wfi", .I, 0xFFFFFFFF, 0x10500073, .wfi⟩
  ]

/-- The descriptors of mask 0xF00FFFFF. -/
def rowsFence : List Descriptor :=
  [
    ⟨"fence", "fence 1, 1", .I, 0xF00FFFFF, 0x0000000F, .fence⟩
  ]

/-- The descriptors of mask 0xFFF0707F. -/
def rowsUnary : List Descriptor :=
  [
    ⟨"fclass.s", "fclass.s t1, ft1", .R, 0xFFF0707F, 0xE0001053, .fclassS⟩,
    ⟨"fmv.x.w", "fmv.x.w t1, ft1", .R, 0xFFF0707F, 0xE0000053, .fmvXW⟩,
    ⟨"fmv.w.x", "fmv.w.x ft1, t1", .R, 0xFFF0707F, 0xF0000053, .fmvWX⟩,
    ⟨"fclass.d", "fclass.d t1, ft1", .R, 0xFFF0707F, 0xE2001053, .fclassD⟩
  ]

/-- The descriptors of mask 0xFFF0007F. -/
def rowsUnaryRm : List Descriptor :=
  [
    ⟨"fsqrt.s", "fsqrt.s ft0, ft1, dyn", .R, 0xFFF0007F, 0x58000053, .fsqrtS⟩,
    ⟨"fcvt.w.s", "fcvt.w.s t1, ft1, dyn", .R, 0xFFF0007F, 0xC0000053, .fcvtWS⟩,
    ⟨"fcvt.wu.s", "fcvt.wu.s t1, ft1, dyn", .R, 0xFFF0007F, 0xC0100053, .fcvtWuS⟩,
    ⟨"fcvt.s.w", "fcvt.s.w ft1, t1, dyn", .R, 0xFFF0007F, 0xD0000053, .fcvtSW⟩,
    ⟨"fcvt.s.wu", "fcvt.s.wu ft1, t1, dyn", .R, 0xFFF0007F, 0xD0100053, .fcvtSWu⟩,
    ⟨"fsqrt.d", "fsqrt.d ft0, ft1, dyn", .R, 0xFFF0007F, 0x5A000053, .fsqrtD⟩,
    ⟨"fcvt.s.d", "fcvt.s.d ft0, ft1, dyn", .R, 0xFFF0007F, 0x40100053, .fcvtSD⟩,
    ⟨"fcvt.d.s", "fcvt.d.s ft0, ft1, dyn", .R, 0xFFF0007F, 0x42000053, .fcvtDS⟩,
    ⟨"fcvt.w.d", "fcvt.w.d t1, ft1, dyn", .R, 0xFFF0007F, 0xC2000053, .fcvtWD⟩,
    ⟨"fcvt.wu.d", "fcvt.wu.d t1, ft1, dyn", .R, 0xFFF0007F, 0xC2100053, .fcvtWuD⟩,
    ⟨"fcvt.d.w", "fcvt.d.w ft1, t1, dyn", .R, 0xFFF0007F, 0xD2000053, .fcvtDW⟩,
    ⟨"fcvt.d.wu", "fcvt.d.wu ft1, t1, dyn", .R, 0xFFF0007F, 0xD2100053, .fcvtDWu⟩
  ]

/-- The descriptors of mask 0xFE00707F. -/
def rowsR : List Descriptor :=
  [
    ⟨"slli", "slli t1, t2, 10", .I, 0xFE00707F, 0x00001013, .slli⟩,
    ⟨"srli", "srli t1, t2, 10", .I, 0xFE00707F, 0x00005013, .srli⟩,
    ⟨"srai", "srai t1, t2, 10", .I, 0xFE00707F, 0x40005013, .srai⟩,
    ⟨"add", "add t1, t2, t3", .R, 0xFE00707F, 0x00000033, .add⟩,
    ⟨"sub", "sub t1, t2, t3", .R, 0xFE00707F, 0x40000033, .sub⟩,
    ⟨"sll", "sll t1, t2, t3", .R, 0xFE00707F, 0x00001033, .sll⟩,
    ⟨"slt", "slt t1, t2, t3", .R, 0xFE00707F, 0x00002033, .slt⟩,
    ⟨"sltu", "sltu t1, t2, t3", .R, 0xFE00707F, 0x00003033, .sltu⟩,
    ⟨"xor", "xor t1, t2, t3", .R, 0xFE00707F, 0x00004033, .xor⟩,
    ⟨"srl", "srl t1, t2, t3", .R, 0xFE00707F, 0x00005033, .srl⟩,
    ⟨"sra", "sra t1, t2, t3", .R, 0xFE00707F, 0x40005033, .sra⟩,
    ⟨"or", "or t1, t2, t3", .R, 0xFE00707F, 0x00006033, .or⟩,
    ⟨"and", "and t1, t2, t3", .R, 0xFE00707F, 0x00007033, .and⟩,
    ⟨"mul", "mul t1, t2, t3", .R, 0xFE00707F, 0x02000033, .mul⟩,
    ⟨"mulh", "mulh t1, t2, t3", .R, 0xFE00707F, 0x02001033, .mulh⟩,
    ⟨"mulhsu", "mulhsu t1, t2, t3", .R, 0xFE00707F, 0x02002033, .mulhsu⟩,
    ⟨"mulhu", "mulhu t1, t2, t3", .R, 0xFE00707F, 0x02003033, .mulhu⟩,
    ⟨"div", "div t1, t2, t3", .R, 0xFE00707F, 0x02004033, .div⟩,
    ⟨"divu", "divu t1, t2, t3", .R, 0xFE00707F, 0x02005033, .divu⟩,
    ⟨"rem", "rem t1, t2, t3", .R, 0xFE00707F, 0x02006033, .rem⟩
  ] ++
  [
    ⟨"remu", "remu t1, t2, t3", .R, 0xFE00707F, 0x02007033, .remu⟩,
    ⟨"fsgnj.s", "fsgnj.s ft0, ft1, ft2", .R, 0xFE00707F, 0x20000053, .fsgnjS⟩,
    ⟨"fsgnjn.s", "fsgnjn.s ft0, ft1, ft2", .R, 0xFE00707F, 0x20001053, .fsgnjnS⟩,
    ⟨"fsgnjx.s", "fsgnjx.s ft0, ft1, ft2", .R, 0xFE00707F, 0x20002053, .fsgnjxS⟩,
    ⟨"fmin.s", "fmin.s ft0, ft1, ft2", .R, 0xFE00707F, 0x28000053, .fminS⟩,
    ⟨"fmax.s", "fmax.s ft0, ft1, ft2", .R, 0xFE00707F, 0x28001053, .fmaxS⟩,
    ⟨"feq.s", "feq.s t1, ft1, ft2", .R, 0xFE00707F, 0xA0002053, .feqS⟩,
    ⟨"flt.s", "flt.s t1, ft1, ft2", .R, 0xFE00707F, 0xA0001053, .fltS⟩,
    ⟨"fle.s", "fle.s t1, ft1, ft2", .R, 0xFE00707F, 0xA0000053, .fleS⟩,
    ⟨"fsgnj.d", "fsgnj.d ft0, ft1, ft2", .R, 0xFE00707F, 0x22000053, .fsgnjD⟩,
    ⟨"fsgnjn.d", "fsgnjn.d ft0, ft1, ft2", .R, 0xFE00707F, 0x22001053, .fsgnjnD⟩,
    ⟨"fsgnjx.d", "fsgnjx.d ft0, ft1, ft2", .R, 0xFE00707F, 0x22002053, .fsgnjxD⟩,
    ⟨"fmin.d", "fmin.d ft0, ft1, ft2", .R, 0xFE00707F, 0x2A000053, .fminD⟩,
    ⟨"fmax.d", "fmax.d ft0, ft1, ft2", .R, 0xFE00707F, 0x2A001053, .fmaxD⟩,
    ⟨"feq.d", "feq.d t1, ft1, ft2", .R, 0xFE00707F, 0xA2002053, .feqD⟩,
    ⟨"flt.d", "flt.d t1, ft1, ft2", .R, 0xFE00707F, 0xA2001053, .fltD⟩,
    ⟨"fle.d", "fle.d t1, ft1, ft2", .R, 0xFE00707F, 0xA2000053, .fleD⟩
  ]

/-- The descriptors of mask 0xFE00007F. -/
def rowsRm : List Descriptor :=
  [
    ⟨"fadd.s", "fadd.s ft0, ft1, ft2, dyn", .R, 0xFE00007F, 0x00000053, .faddS⟩,
    ⟨"fsub.s", "fsub.s ft0, ft1, ft2, dyn", .R, 0xFE00007F, 0x08000053, .fsubS⟩,
    ⟨"fmul.s", "fmul.s ft0, ft1, ft2, dyn", .R, 0xFE00007F, 0x10000053, .fmulS⟩,
    ⟨"fdiv.s", "fdiv.s ft0, ft1, ft2, dyn", .R, 0xFE00007F, 0x18000053, .fdivS⟩,
    ⟨"fadd.d", "fadd.d ft0, ft1, ft2, dyn", .R, 0xFE00007F, 0x02000053, .faddD⟩,
    ⟨"fsub.d", "fsub.d ft0, ft1, ft2, dyn", .R, 0xFE00007F, 0x0A000053, .fsubD⟩,
    ⟨"fmul.d", "fmul.d ft0, ft1, ft2, dyn", .R, 0xFE00007F, 0x12000053, .fmulD⟩,
    ⟨"fdiv.d", "fdiv.d ft0, ft1, ft2, dyn", .R, 0xFE00007F, 0x1A000053, .fdivD⟩
  ]

/-- The descriptors of mask 0x0000707F. -/
def rowsFunct3 : List Descriptor :=
  [
    ⟨"addi", "addi t1, t2, -100", .I, 0x0000707F, 0x00000013, .addi⟩,
    ⟨"slti", "slti t1, t2, -100", .I, 0x0000707F, 0x00002013, .slti⟩,
    ⟨"sltiu", "sltiu t1, t2, -100", .I, 0x0000707F, 0x00003013, .sltiu⟩,
    ⟨"xori", "xori t1, t2, -100", .I, 0x0000707F, 0x00004013, .xori⟩,
    ⟨"ori", "ori t1, t2, -100", .I, 0x0000707F, 0x00006013, .ori⟩,
    ⟨"andi", "andi t1, t2, -100", .I, 0x0000707F, 0x00007013, .andi⟩,
    ⟨"jalr", "jalr t1, t2, -100", .I, 0x0000707F, 0x00000067, .jalr⟩,
    ⟨"beq", "beq t1, t2, label", .B, 0x0000707F, 0x00000063, .beq⟩,
    ⟨"bne", "bne t1, t2, label", .B, 0x0000707F, 0x00001063, .bne⟩,
    ⟨"blt", "blt t1, t2, label", .B, 0x0000707F, 0x00004063, .blt⟩,
    ⟨"bge", "bge t1, t2, label", .B, 0x0000707F, 0x00005063, .bge⟩,
    ⟨"bltu", "bltu t1, t2, label", .B, 0x0000707F, 0x00006063, .bltu⟩,
    ⟨"bgeu", "bgeu t1, t2, label", .B, 0x0000707F, 0x00007063, .bgeu⟩,
    ⟨"lb", "lb t1, -100(t2)", .I, 0x0000707F, 0x00000003, .lb⟩,
    ⟨"lh", "lh t1, -100(t2)", .I, 0x0000707F, 0x00001003, .lh⟩,
    ⟨"lw", "lw t1, -100(t2)", .I, 0x0000707F, 0x00002003, .lw⟩,
    ⟨"lbu", "lbu t1, -100(t2)", .I, 0x0000707F, 0x00004003, .lbu⟩,
    ⟨"lhu", "lhu t1, -100(t2)", .I, 0x0000707F, 0x00005003, .lhu⟩,
    ⟨"sb", "sb t1, -100(t2)", .S, 0x0000707F, 0x00000023, .sb⟩,
    ⟨"sh", "sh t1, -100(t2)", .S, 0x0000707F, 0x00001023, .sh⟩
  ] ++
  [
    ⟨"sw", "sw t1, -100(t2)", .S, 0x0000707F, 0x00002023, .sw⟩,
    ⟨"csrrw", "csrrw t0, fcsr, t1", .I, 0x0000707F, 0x00001073, .csrrw⟩,
    ⟨"csrrs", "csrrs t0, fcsr, t1", .I, 0x0000707F, 0x00002073, .csrrs⟩,
    ⟨"csrrc", "csrrc t0, fcsr, t1", .I, 0x0000707F, 0x00003073, .csrrc⟩,
    ⟨"csrrwi", "csrrwi t0, fcsr, 10", .I, 0x0000707F, 0x00005073, .csrrwi⟩,
    ⟨"csrrsi", "csrrsi t0, fcsr, 10", .I, 0x0000707F, 0x00006073, .csrrsi⟩,
    ⟨"csrrci", "csrrci t0, fcsr, 10", .I, 0x0000707F, 0x00007073, .csrrci⟩,
    ⟨"flw", "flw ft0, -100(t2)", .I, 0x0000707F, 0x00002007, .flw⟩,
    ⟨"fsw", "fsw ft0, -100(t2)", .S, 0x0000707F, 0x00002027, .fsw⟩,
    ⟨"fld", "fld ft0, -100(t2)", .I, 0x0000707F, 0x00003007, .fld⟩,
    ⟨"fsd", "fsd ft0, -100(t2)", .S, 0x0000707F, 0x00003027, .fsd⟩
  ]

/-- The descriptors of mask 0x0600007F. -/
def rowsR4 : List Descriptor :=
  [
    ⟨"fmadd.s", "fmadd.s ft0, ft1, ft2, ft3, dyn", .R4, 0x0600007F, 0x00000043, .fmaddS⟩,
    ⟨"fmsub.s", "fmsub.s ft0, ft1, ft2, ft3, dyn", .R4, 0x0600007F, 0x00000047, .fmsubS⟩,
    ⟨"fnmsub.s", "fnmsub.s ft0, ft1, ft2, ft3, dyn", .R4, 0x0600007F, 0x0000004B, .fnmsubS⟩,
    ⟨"fnmadd.s", "fnmadd.s ft0, ft1, ft2, ft3, dyn", .R4, 0x0600007F, 0x0000004F, .fnmaddS⟩,
    ⟨"fmadd.d", "fmadd.d ft0, ft1, ft2, ft3, dyn", .R4, 0x0600007F, 0x02000043, .fmaddD⟩,
    ⟨"fmsub.d", "fmsub.d ft0, ft1, ft2, ft3, dyn", .R4, 0x0600007F, 0x02000047, .fmsubD⟩,
    ⟨"fnmsub.d", "fnmsub.d ft0, ft1, ft2, ft3, dyn", .R4, 0x0600007F, 0x0200004B, .fnmsubD⟩,
    ⟨"fnmadd.d", "fnmadd.d ft0, ft1, ft2, ft3, dyn", .R4, 0x0600007F, 0x0200004F, .fnmaddD⟩
  ]

/-- The descriptors of mask 0x0000007F. -/
def rowsOpcode : List Descriptor :=
  [
    ⟨"lui", "lui t0, 0x12345", .U, 0x0000007F, 0x00000037, .lui⟩,
    ⟨"auipc", "auipc t0, 0x12345", .U, 0x0000007F, 0x00000017, .auipc⟩,
    ⟨"jal", "jal ra, label", .J, 0x0000007F, 0x0000006F, .jal⟩
  ]

/-- The nine match tables in the order they are tried (R241). -/
def referenceTables : List MatchTable :=
  [⟨0xFFFFFFFF, rowsExact⟩,
   ⟨0xF00FFFFF, rowsFence⟩,
   ⟨0xFFF0707F, rowsUnary⟩,
   ⟨0xFFF0007F, rowsUnaryRm⟩,
   ⟨0xFE00707F, rowsR⟩,
   ⟨0xFE00007F, rowsRm⟩,
   ⟨0x0000707F, rowsFunct3⟩,
   ⟨0x0600007F, rowsR4⟩,
   ⟨0x0000007F, rowsOpcode⟩]

/-- The reference descriptor table, the default of DESCRIPTORS (R3, R4). -/
def descriptors : List Descriptor := referenceTables.flatMap (·.rows)

/-- Decoding over the reference table (R240), its tables already grouped. -/
def decode (w : Word) : Option Instr := (lookupTables w referenceTables).map (fun d => d.build w)

/-- Why a run of bytes is no instruction. -/
inductive DecodeError where
  | noMatch (w : Word)   -- no descriptor is consistent with the word (R245)
  | tooShort             -- fewer than the four bytes of a word (R230)
  deriving DecidableEq, Repr

/-- The little-endian word of four bytes, the first at the lowest address (R156, R230). -/
def wordOfBytes (b0 b1 b2 b3 : Byte) : Word := b3 ++ b2 ++ b1 ++ b0

/-- Decoding of the bytes at an address: the instruction and the bytes after it, or why there is none. -/
def decodeBytes : List Byte → Except DecodeError (Instr × List Byte)
  | b0 :: b1 :: b2 :: b3 :: rest =>
    match decode (wordOfBytes b0 b1 b2 b3) with
    | some i => .ok (i, rest)
    | none => .error (.noMatch (wordOfBytes b0 b1 b2 b3))
  | _ => .error .tooShort

/-- The four bytes of a word as they are stored (R156). -/
def bytesOfWord (w : Word) : List Byte :=
  [w.extractLsb' 0 8, w.extractLsb' 8 8, w.extractLsb' 16 8, w.extractLsb' 24 8]

/-- The word whose bits, numbered as the opcode table numbers them, are `w`; the bits from `nbits` on are 0. -/
def tableWord (nbits w : Nat) : Word := BitVec.ofNat 32 (w % 2 ^ nbits)

/-- What the decoder reads from an instruction whose bits are `w` in the table's numbering. -/
def decodeTableWord (nbits w : Nat) : Option Instr :=
  match decodeBytes (bytesOfWord (tableWord nbits w)) with
  | .ok (i, _) => some i
  | .error _ => none

/-! ## The encoder (R246): match, with each operand placed in its pattern letters -/

/-- A field of the word placed at bit `k`. -/
def place (v : BitVec n) (k : Nat) : Word := v.setWidth 32 <<< k

/-- R format, and the shift-immediate forms with `shamt` in the place of rs2 (R232, R256). -/
def encodeR (base : Word) (rd rs1 rs2 : Reg) : Word := base ||| place rd 7 ||| place rs1 15 ||| place rs2 20
/-- R format with a rounding mode (R232, R258). -/
def encodeRm (base : Word) (rd rs1 rs2 : Reg) (rm : BitVec 3) : Word := encodeR base rd rs1 rs2 ||| place rm 12
/-- R format with one source (R232). -/
def encodeUnary (base : Word) (rd rs1 : Reg) : Word := base ||| place rd 7 ||| place rs1 15
/-- R format with one source and a rounding mode (R232, R258). -/
def encodeUnaryRm (base : Word) (rd rs1 : Reg) (rm : BitVec 3) : Word := encodeUnary base rd rs1 ||| place rm 12
/-- R4 format (R233). -/
def encodeR4 (base : Word) (rd rs1 rs2 rs3 : Reg) (rm : BitVec 3) : Word :=
  encodeRm base rd rs1 rs2 rm ||| place rs3 27
/-- I format (R234, R251). -/
def encodeI (base : Word) (rd rs1 : Reg) (imm : BitVec 12) : Word :=
  base ||| place rd 7 ||| place rs1 15 ||| place imm 20
/-- S format (R235, R252). -/
def encodeS (base : Word) (rs1 rs2 : Reg) (imm : BitVec 12) : Word :=
  base ||| place rs1 15 ||| place rs2 20 ||| place (imm.extractLsb' 0 5) 7 ||| place (imm.extractLsb' 5 7) 25
/-- B format (R236, R253). -/
def encodeB (base : Word) (rs1 rs2 : Reg) (imm : BitVec 13) : Word :=
  base ||| place rs1 15 ||| place rs2 20 ||| place (imm.extractLsb' 11 1) 7 ||| place (imm.extractLsb' 1 4) 8
    ||| place (imm.extractLsb' 5 6) 25 ||| place (imm.extractLsb' 12 1) 31
/-- U format (R237, R254). -/
def encodeU (base : Word) (rd : Reg) (imm : Word) : Word :=
  base ||| place rd 7 ||| place (imm.extractLsb' 12 20) 12
/-- J format (R238, R255). -/
def encodeJ (base : Word) (rd : Reg) (imm : BitVec 21) : Word :=
  base ||| place rd 7 ||| place (imm.extractLsb' 12 8) 12 ||| place (imm.extractLsb' 11 1) 20
    ||| place (imm.extractLsb' 1 10) 21 ||| place (imm.extractLsb' 20 1) 31
/-- The fence word (R258). -/
def encodeFence (base : Word) (pred succ : BitVec 4) : Word := base ||| place pred 24 ||| place succ 20

/-- The word of an instruction (R246). -/
def encode : Instr → Word
  | .lui rd imm => encodeU 0x00000037 rd imm
  | .auipc rd imm => encodeU 0x00000017 rd imm
  | .addi rd rs1 imm => encodeI 0x00000013 rd rs1 imm
  | .slti rd rs1 imm => encodeI 0x00002013 rd rs1 imm
  | .sltiu rd rs1 imm => encodeI 0x00003013 rd rs1 imm
  | .xori rd rs1 imm => encodeI 0x00004013 rd rs1 imm
  | .ori rd rs1 imm => encodeI 0x00006013 rd rs1 imm
  | .andi rd rs1 imm => encodeI 0x00007013 rd rs1 imm
  | .slli rd rs1 shamt => encodeR 0x00001013 rd rs1 shamt
  | .srli rd rs1 shamt => encodeR 0x00005013 rd rs1 shamt
  | .srai rd rs1 shamt => encodeR 0x40005013 rd rs1 shamt
  | .add rd rs1 rs2 => encodeR 0x00000033 rd rs1 rs2
  | .sub rd rs1 rs2 => encodeR 0x40000033 rd rs1 rs2
  | .sll rd rs1 rs2 => encodeR 0x00001033 rd rs1 rs2
  | .slt rd rs1 rs2 => encodeR 0x00002033 rd rs1 rs2
  | .sltu rd rs1 rs2 => encodeR 0x00003033 rd rs1 rs2
  | .xor rd rs1 rs2 => encodeR 0x00004033 rd rs1 rs2
  | .srl rd rs1 rs2 => encodeR 0x00005033 rd rs1 rs2
  | .sra rd rs1 rs2 => encodeR 0x40005033 rd rs1 rs2
  | .or rd rs1 rs2 => encodeR 0x00006033 rd rs1 rs2
  | .and rd rs1 rs2 => encodeR 0x00007033 rd rs1 rs2
  | .jal rd imm => encodeJ 0x0000006F rd imm
  | .jalr rd rs1 imm => encodeI 0x00000067 rd rs1 imm
  | .beq rs1 rs2 imm => encodeB 0x00000063 rs1 rs2 imm
  | .bne rs1 rs2 imm => encodeB 0x00001063 rs1 rs2 imm
  | .blt rs1 rs2 imm => encodeB 0x00004063 rs1 rs2 imm
  | .bge rs1 rs2 imm => encodeB 0x00005063 rs1 rs2 imm
  | .bltu rs1 rs2 imm => encodeB 0x00006063 rs1 rs2 imm
  | .bgeu rs1 rs2 imm => encodeB 0x00007063 rs1 rs2 imm
  | .lb rd rs1 imm => encodeI 0x00000003 rd rs1 imm
  | .lh rd rs1 imm => encodeI 0x00001003 rd rs1 imm
  | .lw rd rs1 imm => encodeI 0x00002003 rd rs1 imm
  | .lbu rd rs1 imm => encodeI 0x00004003 rd rs1 imm
  | .lhu rd rs1 imm => encodeI 0x00005003 rd rs1 imm
  | .sb rs1 rs2 imm => encodeS 0x00000023 rs1 rs2 imm
  | .sh rs1 rs2 imm => encodeS 0x00001023 rs1 rs2 imm
  | .sw rs1 rs2 imm => encodeS 0x00002023 rs1 rs2 imm
  | .mul rd rs1 rs2 => encodeR 0x02000033 rd rs1 rs2
  | .mulh rd rs1 rs2 => encodeR 0x02001033 rd rs1 rs2
  | .mulhsu rd rs1 rs2 => encodeR 0x02002033 rd rs1 rs2
  | .mulhu rd rs1 rs2 => encodeR 0x02003033 rd rs1 rs2
  | .div rd rs1 rs2 => encodeR 0x02004033 rd rs1 rs2
  | .divu rd rs1 rs2 => encodeR 0x02005033 rd rs1 rs2
  | .rem rd rs1 rs2 => encodeR 0x02006033 rd rs1 rs2
  | .remu rd rs1 rs2 => encodeR 0x02007033 rd rs1 rs2
  | .fence pred succ => encodeFence 0x0000000F pred succ
  | .fenceI => 0x0000100F
  | .ecall => 0x00000073
  | .ebreak => 0x00100073
  | .uret => 0x00200073
  | .wfi => 0x10500073
  | .csrrw rd csr rs1 => encodeI 0x00001073 rd rs1 csr
  | .csrrs rd csr rs1 => encodeI 0x00002073 rd rs1 csr
  | .csrrc rd csr rs1 => encodeI 0x00003073 rd rs1 csr
  | .csrrwi rd csr uimm => encodeI 0x00005073 rd uimm csr
  | .csrrsi rd csr uimm => encodeI 0x00006073 rd uimm csr
  | .csrrci rd csr uimm => encodeI 0x00007073 rd uimm csr
  | .flw rd rs1 imm => encodeI 0x00002007 rd rs1 imm
  | .fsw rs1 rs2 imm => encodeS 0x00002027 rs1 rs2 imm
  | .fmaddS rd rs1 rs2 rs3 rm => encodeR4 0x00000043 rd rs1 rs2 rs3 rm
  | .fmsubS rd rs1 rs2 rs3 rm => encodeR4 0x00000047 rd rs1 rs2 rs3 rm
  | .fnmsubS rd rs1 rs2 rs3 rm => encodeR4 0x0000004B rd rs1 rs2 rs3 rm
  | .fnmaddS rd rs1 rs2 rs3 rm => encodeR4 0x0000004F rd rs1 rs2 rs3 rm
  | .faddS rd rs1 rs2 rm => encodeRm 0x00000053 rd rs1 rs2 rm
  | .fsubS rd rs1 rs2 rm => encodeRm 0x08000053 rd rs1 rs2 rm
  | .fmulS rd rs1 rs2 rm => encodeRm 0x10000053 rd rs1 rs2 rm
  | .fdivS rd rs1 rs2 rm => encodeRm 0x18000053 rd rs1 rs2 rm
  | .fsqrtS rd rs1 rm => encodeUnaryRm 0x58000053 rd rs1 rm
  | .fsgnjS rd rs1 rs2 => encodeR 0x20000053 rd rs1 rs2
  | .fsgnjnS rd rs1 rs2 => encodeR 0x20001053 rd rs1 rs2
  | .fsgnjxS rd rs1 rs2 => encodeR 0x20002053 rd rs1 rs2
  | .fminS rd rs1 rs2 => encodeR 0x28000053 rd rs1 rs2
  | .fmaxS rd rs1 rs2 => encodeR 0x28001053 rd rs1 rs2
  | .feqS rd rs1 rs2 => encodeR 0xA0002053 rd rs1 rs2
  | .fltS rd rs1 rs2 => encodeR 0xA0001053 rd rs1 rs2
  | .fleS rd rs1 rs2 => encodeR 0xA0000053 rd rs1 rs2
  | .fclassS rd rs1 => encodeUnary 0xE0001053 rd rs1
  | .fcvtWS rd rs1 rm => encodeUnaryRm 0xC0000053 rd rs1 rm
  | .fcvtWuS rd rs1 rm => encodeUnaryRm 0xC0100053 rd rs1 rm
  | .fcvtSW rd rs1 rm => encodeUnaryRm 0xD0000053 rd rs1 rm
  | .fcvtSWu rd rs1 rm => encodeUnaryRm 0xD0100053 rd rs1 rm
  | .fmvXW rd rs1 => encodeUnary 0xE0000053 rd rs1
  | .fmvWX rd rs1 => encodeUnary 0xF0000053 rd rs1
  | .fld rd rs1 imm => encodeI 0x00003007 rd rs1 imm
  | .fsd rs1 rs2 imm => encodeS 0x00003027 rs1 rs2 imm
  | .fmaddD rd rs1 rs2 rs3 rm => encodeR4 0x02000043 rd rs1 rs2 rs3 rm
  | .fmsubD rd rs1 rs2 rs3 rm => encodeR4 0x02000047 rd rs1 rs2 rs3 rm
  | .fnmsubD rd rs1 rs2 rs3 rm => encodeR4 0x0200004B rd rs1 rs2 rs3 rm
  | .fnmaddD rd rs1 rs2 rs3 rm => encodeR4 0x0200004F rd rs1 rs2 rs3 rm
  | .faddD rd rs1 rs2 rm => encodeRm 0x02000053 rd rs1 rs2 rm
  | .fsubD rd rs1 rs2 rm => encodeRm 0x0A000053 rd rs1 rs2 rm
  | .fmulD rd rs1 rs2 rm => encodeRm 0x12000053 rd rs1 rs2 rm
  | .fdivD rd rs1 rs2 rm => encodeRm 0x1A000053 rd rs1 rs2 rm
  | .fsqrtD rd rs1 rm => encodeUnaryRm 0x5A000053 rd rs1 rm
  | .fsgnjD rd rs1 rs2 => encodeR 0x22000053 rd rs1 rs2
  | .fsgnjnD rd rs1 rs2 => encodeR 0x22001053 rd rs1 rs2
  | .fsgnjxD rd rs1 rs2 => encodeR 0x22002053 rd rs1 rs2
  | .fminD rd rs1 rs2 => encodeR 0x2A000053 rd rs1 rs2
  | .fmaxD rd rs1 rs2 => encodeR 0x2A001053 rd rs1 rs2
  | .fcvtSD rd rs1 rm => encodeUnaryRm 0x40100053 rd rs1 rm
  | .fcvtDS rd rs1 rm => encodeUnaryRm 0x42000053 rd rs1 rm
  | .feqD rd rs1 rs2 => encodeR 0xA2002053 rd rs1 rs2
  | .fltD rd rs1 rs2 => encodeR 0xA2001053 rd rs1 rs2
  | .fleD rd rs1 rs2 => encodeR 0xA2000053 rd rs1 rs2
  | .fclassD rd rs1 => encodeUnary 0xE2001053 rd rs1
  | .fcvtWD rd rs1 rm => encodeUnaryRm 0xC2000053 rd rs1 rm
  | .fcvtWuD rd rs1 rm => encodeUnaryRm 0xC2100053 rd rs1 rm
  | .fcvtDW rd rs1 rm => encodeUnaryRm 0xD2000053 rd rs1 rm
  | .fcvtDWu rd rs1 rm => encodeUnaryRm 0xD2100053 rd rs1 rm

end Sys2Proof
end

