-- ==== Sys2Proof/Config.lean ====
section
/-! DEFINITION. What is fixed for a run and what the spec leaves free: the parameters of 00_scope.md R11 as plain
data, and the free values (uninterpreted constants) the host or a device would supply. -/

namespace Sys2Proof

/-! ## Access kinds and exceptions (20_memory.md R165-R167, 60_exceptions.md R600) -/

/-- The width of a memory access: 1, 2 or 4 bytes (R165). -/
inductive Width where
  | byte | half | word
  deriving DecidableEq, Repr, Inhabited

/-- The access kind an AddressFault carries (R167). -/
inductive AccessKind where
  | fetch | read | write
  deriving DecidableEq, Repr, Inhabited

/-- The reason of an AddressFault (R167). -/
inductive FaultReason where
  | misaligned | access
  deriving DecidableEq, Repr, Inhabited

/-- A synchronous exception with what it carries (R600, R601). -/
inductive Exc where
  | addressFault (kind : AccessKind) (reason : FaultReason) (addr : Word)
  | illegalInstruction (w : Word)
  | environmentCallFault (n : Word)
  deriving DecidableEq, Repr, Inhabited

/-! ## The segment map (20_memory.md R151-R154) -/

/-- The name of a segment. Heap and stack are sub-ranges of data (R151, R152). -/
inductive SegName where
  | reserved | text | data | kernelText | kernelData | mmio
  deriving DecidableEq, Repr

/-- The access class of a segment (R151, R154). -/
inductive SegClass where
  | noAccess | executable | readWrite | mmio
  deriving DecidableEq, Repr

/-- A segment: the half-open range of byte addresses [lo, hi) and its class (R152). -/
structure Segment where
  name : SegName
  lo : Nat
  hi : Nat
  cls : SegClass
  deriving DecidableEq, Repr

/-- MEM_MAP: the segments in rising order and the named addresses (R152). -/
structure MemMap where
  segments : List Segment
  externBase : Word
  globalPointer : Word
  dataBase : Word
  heapBase : Word
  stackPointer : Word
  stackBase : Word
  dataLimit : Word
  textBase : Word
  ktextBase : Word
  kdataBase : Word
  mmioBase : Word
  deriving DecidableEq, Repr

/-- The reference segment map (R152). -/
def MemMap.reference : MemMap where
  segments :=
    [⟨.reserved, 0x00000000, 0x00400000, .noAccess⟩,
     ⟨.text, 0x00400000, 0x10000000, .executable⟩,
     ⟨.data, 0x10000000, 0x80000000, .readWrite⟩,
     ⟨.kernelText, 0x80000000, 0x90000000, .executable⟩,
     ⟨.kernelData, 0x90000000, 0xFFFF0000, .readWrite⟩,
     ⟨.mmio, 0xFFFF0000, 0x100000000, .mmio⟩]
  externBase := 0x10000000
  globalPointer := 0x10008000
  dataBase := 0x10010000
  heapBase := 0x10040000
  stackPointer := 0x7FFFEFFC
  stackBase := 0x7FFFFFFC
  dataLimit := 0x7FFFFFFF
  textBase := 0x00400000
  ktextBase := 0x80000000
  kdataBase := 0x90000000
  mmioBase := 0xFFFF0000

/-- The segments tile the range from `lo` to 2^32 in rising order, every bound a multiple of 4. -/
def tilesFrom (lo : Nat) : List Segment → Bool
  | [] => lo == 2 ^ 32
  | g :: gs => g.lo == lo && g.lo < g.hi && g.hi % 4 == 0 && tilesFrom g.hi gs

/-- A map that may be taken as MEM_MAP: disjoint segments that cover the space, bounds multiples of 4 (R152). -/
def MemMap.wf (mm : MemMap) : Bool := tilesFrom 0 mm.segments

/-! ## System-call services (44_system.md R424, 60_exceptions.md R682) -/

/-- A service of SYSCALLS: the four reference behaviours, and a handler whose whole result is the host's draw. -/
inductive Service where
  | sbrk     -- `r := Allocate(x[10])`; failure is `exit(1)`
  | exitZero -- `exit(0)`
  | exitA0   -- `exit(x[10])`
  | hosted   -- a host-supplied relation: a free value says what it did (log 15)
  deriving DecidableEq, Repr

/-- One thing a host-supplied handler does through the ordinary interfaces (R424, R682). -/
inductive HandlerAction where
  | setX (r : Reg) (v : Word)
  | setF (r : Reg) (v : DWord)
  | setCsr (n : CsrNum) (v : Word)
  | setPc (v : Word)
  | memRead (a : Word) (w : Width)
  | memWrite (a : Word) (w : Width) (v : Word)
  | allocate (r : Reg) (n : Word)   -- `Allocate(n)`, its result written to register r; failure is `exit(1)`
  deriving DecidableEq, Repr, Inhabited

/-- How a handler ends (R424). -/
inductive HandlerOutcome where
  | returns
  | exit (code : Word)
  | raise (e : Exc)
  deriving DecidableEq, Repr, Inhabited

/-- What one run of a host-supplied handler did (R682). -/
structure HandlerReply where
  actions : List HandlerAction
  outcome : HandlerOutcome
  deriving DecidableEq, Repr, Inhabited

/-! ## The parameters of a run (00_scope.md R11) -/

/-- PROGRAM: the assembled statements and the initial data bytes, at their addresses (R700). -/
structure Program where
  text : List (Word × Word)
  data : List (Word × Byte)
  deriving DecidableEq, Repr

/-- The parameters of R11. No step changes them (R701). -/
structure Config where
  descriptors : List Descriptor   -- DESCRIPTORS (R4); the behaviours a row can name are those of `Op` (log 2)
  memMap : MemMap
  smcEnabled : Bool
  heapLimit : Nat
  entryLabel : Option Word        -- the entry-point label's address, if the symbol table has one (R702)
  program : Program
  accRegs : List String
  syscalls : List (Word × Service)
  usipDelivery : Bool
  maxSteps : Option Nat
  backstepCapacity : Nat
  backstepEnabled : Bool
  breakpoints : List Word
  deviceAgents : Bool             -- the model's own: the inbox lists every device event, so MMIO is plain storage (log 5)
  deriving DecidableEq, Repr

/-- ENTRY (R702). -/
def Config.entry (c : Config) : Word := c.entryLabel.getD c.memMap.textBase

/-- The defaults of R11. -/
def Config.reference : Config where
  descriptors := Sys2Proof.descriptors
  memMap := .reference
  smcEnabled := false
  heapLimit := 0x80000000
  entryLabel := none
  program := ⟨[], []⟩
  accRegs := []
  syscalls := [(9, .sbrk), (10, .exitZero), (17, .exitA0), (93, .exitA0)]
  usipDelivery := true
  maxSteps := none
  backstepCapacity := 2000
  backstepEnabled := true
  breakpoints := []
  deviceAgents := false

/-! ## Free values: uninterpreted, so a claim holds whatever they are -/

/-- TIME: the n-th draw from the host clock (60_exceptions.md R652, U13; log 4). -/
opaque Config.timeDraw : Nat → BitVec 64

/-- The bytes the n-th MMIO read finds when no device is modelled (20_memory.md R176, U12; log 5). -/
opaque Config.mmioDraw : Nat → Word

/-- What the n-th run of a host-supplied handler did (60_exceptions.md R682, U14; log 15). -/
opaque Config.hostReply : Nat → HandlerReply

end Sys2Proof
end

