-- ==== Sys2Proof/Machine/Memory.lean ====
section
/-! DEFINITION. The stores of the memory unit as sparse sorted lists, the segment map's queries, and the byte-order
helpers (20_memory.md R150-R157). -/

namespace Sys2Proof.Machine

/-! ## Sparse stores: lists of (key, value), keys strictly rising -/

/-- The value stored under a key. -/
def storeFind : List (Nat × β) → Nat → Option β
  | [], _ => none
  | (k, v) :: rest, a => if a = k then some v else storeFind rest a

/-- The store with `v` under the key `a`. -/
def storePut : List (Nat × β) → Nat → β → List (Nat × β)
  | [], a, v => [(a, v)]
  | (k, w) :: rest, a, v =>
    if a < k then (a, v) :: (k, w) :: rest
    else if a = k then (a, v) :: rest
    else (k, w) :: storePut rest a v

/-- The store with nothing under the key `a`. -/
def storeErase : List (Nat × β) → Nat → List (Nat × β)
  | [], _ => []
  | (k, w) :: rest, a => if a = k then rest else (k, w) :: storeErase rest a

/-- The keys of a store rise strictly. -/
def keysRise : List (Nat × β) → Bool
  | [] => true
  | [_] => true
  | (a, _) :: (b, w) :: rest => a < b && keysRise ((b, w) :: rest)

/-- What a byte that no entry lists reads as: 0x00 (R155, D8). -/
def unlistedByte : Byte := 0

/-- BYTES: the byte at an address (R155). -/
def memGet (m : List Host.Cell) (a : Nat) : Byte := (storeFind m a).getD unlistedByte

/-- BYTES with the byte at an address replaced; a byte equal to what an unlisted one reads as is not listed. -/
def memSet (m : List Host.Cell) (a : Nat) (v : Byte) : List Host.Cell :=
  if v = unlistedByte then storeErase m a else storePut m a v

/-- The canonical form of BYTES: addresses strictly rising and inside the space, no entry equal to an unlisted byte. -/
def Memory.wf (m : List Host.Cell) : Bool :=
  keysRise m && m.all (fun c => c.1 < 2 ^ 32 && c.2 != unlistedByte)

/-- The canonical form of TEXT: word addresses strictly rising and inside the space. -/
def Memory.textWf (t : List (Nat × Word)) : Bool :=
  keysRise t && t.all (fun c => c.1 < 2 ^ 32 && c.1 % 4 == 0)

/-! ## Addresses and segments -/

/-- The number of bytes of a width (R165). -/
def bytesOf : Width → Nat
  | .byte => 1
  | .half => 2
  | .word => 4

/-- The address is a multiple of the width (R165). -/
def aligned (a : Word) (w : Width) : Bool := a.toNat % bytesOf w == 0

/-- The word address that holds a byte address: `a & ~3` (R161). -/
def textKey (a : Word) : Nat := (a &&& ~~~(3 : Word)).toNat

/-- The segment whose range holds an address (R153). DESIGN CHOICE (log 30): any map is taken, and where segments overlap
the first listed one holds the address. -/
def segmentOf (mm : MemMap) (a : Word) : Option Segment :=
  mm.segments.find? (fun g => g.lo ≤ a.toNat && a.toNat < g.hi)

/-- The access class at an address; where a map leaves a hole, no access (DESIGN CHOICE, log 30). -/
def classAt (mm : MemMap) (a : Word) : SegClass :=
  match segmentOf mm a with
  | some g => g.cls
  | none => .noAccess

/-- The address lies in an executable segment. -/
def executableAt (mm : MemMap) (a : Word) : Bool := classAt mm a == .executable

/-- The permission table of R154. -/
def classPermits (smc : Bool) : SegClass → AccessKind → Bool
  | .noAccess, _ => false
  | .executable, .fetch => true
  | .executable, _ => smc
  | .readWrite, .fetch => false
  | .readWrite, _ => true
  | .mmio, .fetch => false
  | .mmio, _ => true

/-- The segment of an address permits an access kind (R154). -/
def permits (c : Config) (a : Word) (k : AccessKind) : Bool := classPermits c.smcEnabled (classAt c.memMap a) k

/-! ## Byte order (R156) -/

/-- Byte `i` of a word, byte 0 its low byte. -/
def byteOf (v : Word) (i : Nat) : Byte := v.extractLsb' (8 * i) 8

/-- The word with byte `i` replaced. -/
def withByte (v : Word) (i : Nat) (b : Byte) : Word :=
  (v &&& ~~~((0xFF : Word) <<< (8 * i))) ||| (b.setWidth 32 <<< (8 * i))

/-- The little-endian word of `n` bytes given by a function of their offset. -/
def wordOf (byteAt : Nat → Byte) : Nat → Word
  | 0 => 0
  | n + 1 => withByte (wordOf byteAt n) n (byteAt n)

/-- A value cut to the width of an access. -/
def maskWidth (w : Width) (v : Word) : Word :=
  match w with
  | .byte => v &&& 0xFF
  | .half => v &&& 0xFFFF
  | .word => v

/-! ## Loading PROGRAM (70_reset_and_hazards.md R700) -/

/-- TEXT holding exactly the statements of a program. DESIGN CHOICE (log 28): an address is taken down to its word
address, of two statements at one word address the last in the list stands, and a statement outside the executable
segments is kept where no fetch reads it. -/
def loadText (ps : List (Word × Word)) : List (Nat × Word) :=
  ps.foldl (fun t p => storePut t (textKey p.1) p.2) []

/-- BYTES holding a program's initial data bytes. DESIGN CHOICE (log 28): of two bytes at one address the last in the list
stands, and a byte at an address of an executable segment is kept where no access reads it. -/
def loadData (ps : List (Word × Byte)) : List Host.Cell :=
  ps.foldl (fun m p => memSet m p.1.toNat p.2) []

end Sys2Proof.Machine
end

