-- ==== Sys2Proof/Machine/State.lean ====
section
/-! DEFINITION. The state of the block as plain data (10_state.md, 60_exceptions.md R102, R660), the machine after
reset (70_reset_and_hazards.md R700-R704), and the reasons a step can stop with. -/

namespace Sys2Proof.Machine

/-! ## Control/status bank (R86) -/

/-- The storage of the control/status bank. `fflags` and `frm` are views of `fcsr` and have none (R82, R86). -/
structure Csrs where
  ustatus : Word
  fcsr : Word
  uie : Word
  utvec : Word
  uscratch : Word
  uepc : Word
  ucause : Word
  utval : Word
  uip : Word
  cycle : Word
  time : Word
  instret : Word
  cycleh : Word
  timeh : Word
  instreth : Word
  deriving DecidableEq, Repr

/-- Every CSR at its reset value 0 (R86). -/
def Csrs.reset : Csrs := ⟨0, 0, 0, 0, 0, 0, 0, 0, 0, 0, 0, 0, 0, 0, 0⟩

/-- The registers the control/status bank holds, by name (R86). -/
inductive Csr where
  | ustatus | fflags | frm | fcsr | uie | utvec | uscratch | uepc | ucause | utval | uip
  | cycle | time | instret | cycleh | timeh | instreth
  deriving DecidableEq, Repr

/-! ## Interrupt & trap controller (R100, R101) -/

/-- The kinds of record outside agents register (R610, R613). -/
inductive IrqKind where
  | external | timer
  deriving DecidableEq, Repr

/-- The payload of a pending synchronous record (R100, R611). -/
structure SyncRecord where
  exc : Exc
  savedPc : Word
  deriving DecidableEq, Repr

/-- The controller: a record is `none` while idle and holds its payload while pending (R100); the flag of R101. -/
structure Controller where
  external : Option Word
  timer : Option Word
  sync : Option SyncRecord
  checkRequested : Bool
  deriving DecidableEq, Repr

/-! ## Driver (R102, R620, R621, R640) -/

/-- The class a stop with an exception reports (R600, R631, R633). -/
inductive ExcClass where
  | addressFault | illegalInstruction | environmentCallFault | interrupt
  deriving DecidableEq, Repr

/-- The stop reasons of R640. -/
inductive StopReason where
  | breakpoint
  | maxSteps
  | userStop
  | stepDone
  | exit (code : Word)
  | exception (cls : ExcClass) (code tval savedPc : Word)
  | cliff
  deriving DecidableEq, Repr

/-- The Driver state (R102, R621); `left` is how many iterations a bounded run still has. -/
inductive DriverState where
  | ready
  | running
  | stepping (left : Nat)
  | stopped (r : StopReason)
  deriving DecidableEq, Repr

/-- The variables of the current iteration (R102, R620) and what its BackStepper entries carry: its step number
(none at a boundary) and the retirement counts at its start (R660, R663; log 13). -/
structure Iter where
  cur : Word
  pcSet : Bool
  breakpointHit : Bool
  raised : Bool
  step : Option Nat
  cycles : BitVec 64
  instret : BitVec 64
  deriving DecidableEq, Repr

/-! ## BackStepper (R104, R660) -/

/-- The prior content of one cell a store touched: a byte of BYTES, or a statement of TEXT. -/
inductive SavedCell where
  | byte (addr : Nat) (prior : Byte)
  | text (key : Nat) (prior : Option Word)
  deriving DecidableEq, Repr

/-- Kind, location and prior value of a recorded mutation (R660). -/
inductive Change where
  | gpr (r : Reg) (prior : Word)
  | acc (name : String) (prior : Word)
  | pc (prior : Word)
  | fpr (r : Reg) (prior : DWord)
  | csr (c : Csr) (prior : Word)
  | store (a : Word) (w : Width) (prior : List SavedCell)
  | heap (prior : Nat)
  deriving DecidableEq, Repr

/-- A BackStep entry (R660): the change; the saved PC, if any; the raw word of the statement at that PC, if any;
the step number, or none for a write made at a boundary; and the retirement counts before that step (R663). -/
structure BackEntry where
  change : Change
  savedPc : Option Word
  statement : Option Word
  step : Option Nat
  cycles : BitVec 64
  instret : BitVec 64
  deriving DecidableEq, Repr

/-! ## Host and device agents (R613, R680, R683) -/

/-- A register as the host selects it, by its bank and any number, or by name (R51, R54, R58, R70, R86). -/
inductive RegSel where
  | gpr (n : Nat)
  | pc
  | fpr (n : Nat)
  | csr (n : Nat)
  | named (name : String)
  deriving DecidableEq, Repr

/-- What the host or a device agent does at an instruction boundary (R613, R621, R680, R683). -/
inductive HostEvent where
  | run
  | step (n : Nat)
  | stop
  | reset
  | undo
  | getReg (r : RegSel)
  | setReg (r : RegSel) (v : DWord)
  | getMem (a : Word) (w : Width)
  | setMem (a : Word) (w : Width) (v : Word)
  | queryStop
  | register (k : IrqKind) (payload : Word)
  | deviceWrite (a : Word) (w : Width) (v : Word)
  deriving DecidableEq, Repr

/-- What the block puts out: change notifications (R52, R171) and answers to the host (R51, R610, R663, R680). -/
inductive Output where
  | gprChanged (r : Reg) (v : Word)
  | pcChanged (v : Word)
  | accChanged (name : String) (v : Word)
  | fprChanged (r : Reg) (v : DWord)
  | csrChanged (c : Csr) (v : Word)
  | memChanged (a : Word) (w : Width) (v : Word)
  | value (v : DWord)          -- a register or memory cell's value, or a set's prior value
  | absent                     -- the bank holds no such register (R51)
  | driver (d : DriverState)   -- the Driver state, with the stop reason if it is stopped
  | registered (k : IrqKind) (ok : Bool)
  | nothingToUndo
  deriving DecidableEq, Repr

/-! ## The state -/

/-- Everything the spec gives the machine, the run's parameters, and the model's own `inbox`, `outputs` and `draws`. -/
structure State where
  x : Vector Word 32              -- general registers; slot 0 is never written (R54, R55)
  pc : Word                       -- R57
  acc : List (String × Word)      -- ACC_REGS (R58)
  f : Vector DWord 32             -- R70
  csr : Csrs                      -- R86
  ctl : Controller                -- R100, R101
  driver : DriverState            -- R102
  iter : Iter                     -- R102, R620
  steps : Nat                     -- R642
  cycles : BitVec 64              -- CYCLES (R650)
  instret : BitVec 64             -- INSTRET (R650)
  seq : Nat                       -- R661
  stopRequested : Bool            -- R640
  mem : List Host.Cell            -- BYTES (R155)
  text : List (Nat × Word)        -- TEXT (R155)
  heapTop : Nat                   -- R180
  ring : List BackEntry           -- the BackStepper's live entries, newest first (R104)
  recording : Bool                -- R104
  cfg : Config                    -- 00_scope.md R11
  inbox : List (List HostEvent)   -- one batch per coming step (log 6)
  outputs : List Output           -- newest first (log 14)
  draws : Nat                     -- free values drawn so far (log 4)
  deriving DecidableEq, Repr

/-- The general registers at reset (R59). -/
def resetGprs (c : Config) : Vector Word 32 :=
  ((Vector.replicate 32 (0 : Word)).set 2 c.memMap.stackPointer).set 3 c.memMap.globalPointer

/-- The machine reset under the given parameters (R700, R704). -/
def State.resetWith (c : Config) : State where
  x := resetGprs c
  pc := c.entry
  acc := c.accRegs.map (fun n => (n, 0))
  f := Vector.replicate 32 0
  csr := .reset
  ctl := ⟨none, none, none, false⟩
  driver := .ready
  iter := ⟨c.entry, false, false, false, none, 0, 0⟩
  steps := 0
  cycles := 0
  instret := 0
  seq := 0
  stopRequested := false
  mem := loadData c.program.data
  text := loadText c.program.text
  heapTop := c.memMap.heapBase.toNat
  ring := []
  recording := c.backstepEnabled
  cfg := c
  inbox := []
  outputs := []
  draws := 0

/-- The machine right after reset, under the default parameters (R704). -/
def State.reset : State := .resetWith .reference

/-! ## Reasons a step can stop with -/

/-- The checks that raise InternalInconsistency (R603). -/
inductive Inconsistency where
  | secondSyncRegistration   -- R611, D60
  | savedPcMismatch          -- R615
  | claimFailed              -- a claim by the Driver that fails
  deriving DecidableEq, Repr

/-- Why the machine stops. -/
inductive Fault where
  /-- Raised by taking a synchronous exception (Ops.lean) when a check of R603 fails: the session aborts. Safe: the
  spec gives no further behaviour, and no state with an idle synchronous record reaches it. -/
  | internalInconsistency (c : Inconsistency)
  /-- Raised by `step` when the Driver is ready or stopped and no agent has anything to do: there is no next
  iteration until the host commands one (R621; log 8). Safe. -/
  | driverIdle
  deriving DecidableEq, Repr

/-- Why the model gives an input or an instruction no meaning. -/
inductive Refusal where
  /-- Raised by `exec` for an instruction that has no meaning yet. Safe. -/
  | notModelled (mnemonic : String)
  /-- Raised by `step` for a host write, an undo or a reset while the Driver is running or stepping (R186, R680,
  R700, U24). Safe. -/
  | hostWriteWhileRunning
  /-- Raised by `step` for a run or step command R621 gives no transition for. Safe. -/
  | commandNotAccepted
  /-- Raised by `step` for a device write outside the MMIO segment, which no device agent may make (R683). Safe. -/
  | deviceWriteOutsideMmio
  deriving DecidableEq, Repr

/-- The outcome of an instruction or of a step. -/
abbrev Result := Host.Outcome State Fault Refusal

end Sys2Proof.Machine
end

