-- ==== Sys2Proof/Machine/Ops.lean ====
section
/-! DEFINITION. The named operations over the state: recording, the register banks, memory, the heap, the
controller, taking an exception, entering an interrupt and returning from either (10_state.md, 20_memory.md,
60_exceptions.md). -/

namespace Sys2Proof.Machine

/-! ## Recording and output (R52, R171, R660) -/

/-- A BackStep entry pushed before the mutation it describes; once the ring is full the oldest entry goes (R660, R662).
Inside an iteration it carries `cur`, the statement there and the step number; at a boundary none of them (log 13). -/
def State.record (s : State) (c : Change) : State :=
  if s.recording then
    let entry : BackEntry :=
      { change := c
        savedPc := s.iter.step.map (fun _ => s.iter.cur)
        statement := s.iter.step.bind (fun _ => storeFind s.text s.iter.cur.toNat)
        step := s.iter.step
        cycles := s.iter.cycles
        instret := s.iter.instret }
    { s with ring := (entry :: s.ring).take s.cfg.backstepCapacity }
  else s

/-- An output of the block. -/
def State.emit (s : State) (o : Output) : State := { s with outputs := o :: s.outputs }

/-! ## General-purpose bank (R52-R59) -/

/-- `x[i]`: register 0 reads 0 (R55). -/
def State.readX (s : State) (r : Reg) : Word := if r = 0 then 0 else s.x[r.toNat]'r.isLt

/-- `x[i] <- v`: a write of x0 is dropped, and a write that changes nothing records and notifies nothing (R52, R55). -/
def State.writeX (s : State) (r : Reg) (v : Word) : State :=
  if r = 0 then s
  else if s.readX r = v then s
  else { s.record (.gpr r (s.readX r)) with x := s.x.set r.toNat v r.isLt }.emit (.gprChanged r v)

/-- A write of `pc` (R52, R57). -/
def State.writePc (s : State) (v : Word) : State :=
  if s.pc = v then s
  else { s.record (.pc s.pc) with pc := v }.emit (.pcChanged v)

/-- `pc <- target` in a behaviour: sets `pc` and raises `pc_set` (R14, R622). It stands for the advance, which the
Driver pushes as an entry of kind `pc` in every iteration that reaches step 4 (R663), so that a jump to itself is
recorded too and undoes on its own (90_conflicts.md C7; log 11). -/
def State.jumpTo (s : State) (target : Word) : State :=
  let s1 := if s.pc = target then s.record (.pc s.pc) else s.writePc target
  { s1 with iter := { s1.iter with pcSet := true } }

/-- The value of a legacy accumulator register (R58). -/
def accFind : List (String × Word) → String → Option Word
  | [], _ => none
  | (n, v) :: rest, name => if n = name then some v else accFind rest name

/-- The accumulator list with one value replaced. -/
def accPut : List (String × Word) → String → Word → List (String × Word)
  | [], _, _ => []
  | (n, w) :: rest, name, v => if n = name then (n, v) :: rest else (n, w) :: accPut rest name v

/-- A host write of an accumulator register the bank holds (R58). -/
def State.writeAcc (s : State) (name : String) (v : Word) : State :=
  match accFind s.acc name with
  | none => s
  | some old =>
    if old = v then s
    else { s.record (.acc name old) with acc := accPut s.acc name v }.emit (.accChanged name v)

/-! ## Floating-point bank (R70-R72) -/

/-- `f[i]` (R71). -/
def State.readF (s : State) (r : Reg) : DWord := s.f[r.toNat]'r.isLt

/-- `f[i] <- v` (R52, R71). -/
def State.writeF (s : State) (r : Reg) (v : DWord) : State :=
  if s.readF r = v then s
  else { s.record (.fpr r (s.readF r)) with f := s.f.set r.toNat v r.isLt }.emit (.fprChanged r v)

/-! ## Control/status bank (R80-R93) -/

/-- The number of a CSR (R86). -/
def Csr.number : Csr → CsrNum
  | .ustatus => 0x000
  | .fflags => 0x001
  | .frm => 0x002
  | .fcsr => 0x003
  | .uie => 0x004
  | .utvec => 0x005
  | .uscratch => 0x040
  | .uepc => 0x041
  | .ucause => 0x042
  | .utval => 0x043
  | .uip => 0x044
  | .cycle => 0xC00
  | .time => 0xC01
  | .instret => 0xC02
  | .cycleh => 0xC80
  | .timeh => 0xC81
  | .instreth => 0xC82

/-- The seventeen registers of the bank (R86). -/
def allCsrs : List Csr :=
  [.ustatus, .fflags, .frm, .fcsr, .uie, .utvec, .uscratch, .uepc, .ucause, .utval, .uip,
   .cycle, .time, .instret, .cycleh, .timeh, .instreth]

/-- The register of a number; none where the bank holds none ("absent", R51, R86). -/
def csrOfNumber (n : CsrNum) : Option Csr := allCsrs.find? (fun c => c.number == n)

/-- How an ordinary write acts (R81): `view submask shift` is the masked view into another register (R82). -/
inductive CsrKind where
  | plain
  | readOnly
  | masked (wmask : Word)
  | view (submask : Word) (shift : Nat)
  deriving DecidableEq, Repr

/-- The kind of each register (R86). -/
def Csr.kind : Csr → CsrKind
  | .ustatus => .masked 0x00000011
  | .fflags => .view 0x0000001F 0
  | .frm => .view 0x000000E0 5
  | .fcsr => .masked 0x000000FF
  | .uie | .utvec | .uscratch | .uepc | .ucause | .utval | .uip => .plain
  | .cycle | .time | .instret | .cycleh | .timeh | .instreth => .readOnly

/-- The register that holds the bits of another: itself, but for the views of `fcsr` (R82). -/
def Csr.backing : Csr → Csr
  | .fflags => .fcsr
  | .frm => .fcsr
  | c => c

/-- The stored word behind a register. -/
def Csrs.get (t : Csrs) : Csr → Word
  | .ustatus => t.ustatus
  | .fflags | .frm | .fcsr => t.fcsr
  | .uie => t.uie
  | .utvec => t.utvec
  | .uscratch => t.uscratch
  | .uepc => t.uepc
  | .ucause => t.ucause
  | .utval => t.utval
  | .uip => t.uip
  | .cycle => t.cycle
  | .time => t.time
  | .instret => t.instret
  | .cycleh => t.cycleh
  | .timeh => t.timeh
  | .instreth => t.instreth

/-- The bank with the stored word behind a register replaced. -/
def Csrs.set (t : Csrs) (c : Csr) (v : Word) : Csrs :=
  match c with
  | .ustatus => { t with ustatus := v }
  | .fflags | .frm | .fcsr => { t with fcsr := v }
  | .uie => { t with uie := v }
  | .utvec => { t with utvec := v }
  | .uscratch => { t with uscratch := v }
  | .uepc => { t with uepc := v }
  | .ucause => { t with ucause := v }
  | .utval => { t with utval := v }
  | .uip => { t with uip := v }
  | .cycle => { t with cycle := v }
  | .time => { t with time := v }
  | .instret => { t with instret := v }
  | .cycleh => { t with cycleh := v }
  | .timeh => { t with timeh := v }
  | .instreth => { t with instreth := v }

/-- The ordinary read of a register (R80, R82). -/
def State.csrRead (s : State) (c : Csr) : Word :=
  match c.kind with
  | .view m k => (s.csr.get c &&& m) >>> k
  | _ => s.csr.get c

/-- A recorded and notified replacement of a stored word; nothing where it changes nothing (R52). -/
def State.csrStore (s : State) (c : Csr) (v : Word) : State :=
  if s.csr.get c = v then s
  else { s.record (.csr c (s.csr.get c)) with csr := s.csr.set c v }.emit (.csrChanged c v)

/-- The ordinary write of a register (R81, R83). -/
def State.csrWrite (s : State) (c : Csr) (v : Word) : State :=
  match c.kind with
  | .readOnly => s
  | .plain => s.csrStore c v
  | .masked m => s.csrStore c ((s.csr.get c &&& ~~~m) ||| (v &&& m))
  | .view m k => s.csrStore c.backing ((s.csr.get c &&& ~~~m) ||| ((v <<< k) &&& m))

/-- The privileged backdoor write: not recorded, not notified (R85). -/
def State.csrBackdoor (s : State) (c : Csr) (v : Word) : State := { s with csr := s.csr.set c v }

/-- The retirement counts shown in their CSRs by backdoor writes (R650). -/
def State.showCounts (s : State) : State :=
  (((s.csrBackdoor .cycle (s.cycles.extractLsb' 0 32)).csrBackdoor .cycleh (s.cycles.extractLsb' 32 32)).csrBackdoor
    .instret (s.instret.extractLsb' 0 32)).csrBackdoor .instreth (s.instret.extractLsb' 32 32)

/-! ## Memory: raw access (R156, R161, R162, R170, R171) -/

/-- The byte at an address: of the statement in an executable segment (0 where it is absent), of BYTES elsewhere. -/
def State.byteAt (s : State) (a : Word) : Byte :=
  if executableAt s.cfg.memMap a then byteOf ((storeFind s.text (textKey a)).getD 0) (a.toNat % 4)
  else memGet s.mem a.toNat

/-- One byte replaced, in TEXT or in BYTES by its address. -/
def State.setByte (s : State) (a : Word) (b : Byte) : State :=
  if executableAt s.cfg.memMap a then
    { s with text := storePut s.text (textKey a) (withByte ((storeFind s.text (textKey a)).getD 0) (a.toNat % 4) b) }
  else { s with mem := memSet s.mem a.toNat b }

/-- The low `n` bytes of a word stored little-endian from an address on, modulo 2^32. -/
def State.setBytes (s : State) (a v : Word) : Nat → State
  | 0 => s
  | n + 1 => (s.setBytes a v n).setByte (a + BitVec.ofNat 32 n) (byteOf v n)

/-- `RawRead(a, n)`: the little-endian value at an address, whatever its alignment and segment (R170). -/
def State.rawRead (s : State) (a : Word) (w : Width) : Word :=
  wordOf (fun i => s.byteAt (a + BitVec.ofNat 32 i)) (bytesOf w)

/-- What the cell of one byte address holds, for the BackStepper. -/
def State.savedCell (s : State) (a : Word) : SavedCell :=
  if executableAt s.cfg.memMap a then .text (textKey a) (storeFind s.text (textKey a))
  else .byte a.toNat (memGet s.mem a.toNat)

/-- What the cells of an access hold. -/
def State.savedCells (s : State) (a : Word) (w : Width) : List SavedCell :=
  (List.range (bytesOf w)).map (fun i => s.savedCell (a + BitVec.ofNat 32 i))

/-- Some statement an access touches is absent. -/
def State.touchesAbsent (s : State) (a : Word) (w : Width) : Bool :=
  (List.range (bytesOf w)).any (fun i =>
    let b := a + BitVec.ofNat 32 i
    executableAt s.cfg.memMap b && (storeFind s.text (textKey b)).isNone)

/-- A store changes something: a byte, or a statement from absent to present (D54; log 12). DESIGN CHOICE (log 5): in
MMIO the byte compared is the stored one, also where no device is modelled and reads there are draws. -/
def State.storeChanges (s : State) (a : Word) (w : Width) (v : Word) : Bool :=
  s.rawRead a w != maskWidth w v || s.touchesAbsent a w

/-- `RawWrite(a, n, v)`: recorded, written little-endian, notified; nothing where it changes nothing (R166, R170, R171).
DEDUCED (log 25): a raw write reaches TEXT whether or not SMC_ENABLED is true. -/
def State.rawWrite (s : State) (a : Word) (w : Width) (v : Word) : State :=
  if s.storeChanges a w v then
    ((s.record (.store a w (s.savedCells a w))).setBytes a v (bytesOf w)).emit (.memChanged a w (maskWidth w v))
  else s

/-! ## Memory: checked access (R165-R168, R175, R176) -/

/-- The AddressFault of a data access, if it has one: alignment is checked before permission (R165, R166, D7). -/
def State.accessFault (s : State) (k : AccessKind) (a : Word) (w : Width) : Option Exc :=
  if !aligned a w then some (.addressFault k .misaligned a)
  else if !permits s.cfg a k then some (.addressFault k .access a)
  else none

/-- An MMIO read is a draw, because no device agent is modelled (R176; log 5). -/
def State.readIsDraw (s : State) (a : Word) : Bool := !s.cfg.deviceAgents && classAt s.cfg.memMap a == .mmio

/-- The value a permitted read returns. -/
def State.loadedValue (s : State) (a : Word) (w : Width) : Word :=
  if s.readIsDraw a then maskWidth w (Config.mmioDraw s.draws) else s.rawRead a w

/-- The state after a permitted read: one free value is used up where the read was a draw. -/
def State.afterRead (s : State) (a : Word) : State := if s.readIsDraw a then { s with draws := s.draws + 1 } else s

/-- `MemRead(a, n)` (R165). -/
def State.memRead (s : State) (a : Word) (w : Width) : Except Exc (Word × State) :=
  match s.accessFault .read a w with
  | some e => .error e
  | none => .ok (s.loadedValue a w, s.afterRead a)

/-- `MemWrite(a, n, v)` (R166, R168). -/
def State.memWrite (s : State) (a : Word) (w : Width) (v : Word) : Except Exc State :=
  match s.accessFault .write a w with
  | some e => .error e
  | none => .ok (s.rawWrite a w v)

/-! ## Heap (R180, R181) -/

/-- The next multiple of 4. -/
def roundUp4 (n : Nat) : Nat := (n + 3) / 4 * 4

/-- `Allocate(n)`: the old top and the state with the new one, or none where it fails (R180). -/
def State.allocate (s : State) (n : Word) : Option (Word × State) :=
  let top := roundUp4 (s.heapTop + n.toNat)
  if n.toInt < 0 then none
  else if top > s.cfg.heapLimit then none
  else if top = s.heapTop then some (BitVec.ofNat 32 s.heapTop, s)
  else some (BitVec.ofNat 32 s.heapTop, { s.record (.heap s.heapTop) with heapTop := top })

/-! ## The controller (R610-R614) -/

/-- The record of an outside kind. -/
def Controller.irq (c : Controller) : IrqKind → Option Word
  | .external => c.external
  | .timer => c.timer

/-- The controller with the record of an outside kind replaced. -/
def Controller.setIrq (c : Controller) (k : IrqKind) (r : Option Word) : Controller :=
  match k with
  | .external => { c with external := r }
  | .timer => { c with timer := r }

/-- `register(k, payload)` by an outside agent: fails while pending, and then changes no record (R610, R613, R614). -/
def Controller.registerIrq (c : Controller) (k : IrqKind) (payload : Word) : Controller × Bool :=
  match c.irq k with
  | some _ => (c, false)
  | none => ({ c.setIrq k (some payload) with checkRequested := true }, true)

/-- `claim(k)`: the payload and the controller with the record idle; fails where it is not pending (R610). -/
def Controller.claimIrq (c : Controller) (k : IrqKind) : Option (Word × Controller) :=
  match c.irq k with
  | some p => some (p, c.setIrq k none)
  | none => none

/-- `register(synchronous, ...)`: fails while pending (R610, R611). -/
def Controller.registerSync (c : Controller) (r : SyncRecord) : Option Controller :=
  match c.sync with
  | some _ => none
  | none => some { c with sync := some r }

/-- `claim(synchronous)` (R610, R612). -/
def Controller.claimSync (c : Controller) : Option (SyncRecord × Controller) :=
  match c.sync with
  | some r => some (r, { c with sync := none })
  | none => none

/-! ## Exceptions: codes, values and classes (R600, R601) -/

/-- The cause code (R600). -/
def excCode : Exc → Word
  | .addressFault .fetch .misaligned _ => 0
  | .addressFault .fetch .access _ => 1
  | .illegalInstruction _ => 2
  | .addressFault .read .misaligned _ => 4
  | .addressFault .read .access _ => 5
  | .addressFault .write .misaligned _ => 6
  | .addressFault .write .access _ => 7
  | .environmentCallFault _ => 8

/-- The trap value (R601). -/
def excTval : Exc → Word
  | .addressFault _ _ a => a
  | .illegalInstruction w => w
  | .environmentCallFault _ => 0

/-- The taxonomy class (R600). -/
def excClass : Exc → ExcClass
  | .addressFault _ _ _ => .addressFault
  | .illegalInstruction _ => .illegalInstruction
  | .environmentCallFault _ => .environmentCallFault

/-! ## Trap and interrupt entry and return (R426, R624, R629-R633) -/

/-- ustatus.UIE (R87). -/
def State.uie (s : State) : Bool := s.csr.ustatus.getLsbD 0

/-- `BASE`, the handler base address (R90, R624). -/
def State.trapBase (s : State) : Word := s.csr.utvec &&& 0xFFFFFFFC

/-- `HandlerOK(t)`: aligned, in an executable segment, and a statement is there (R629). -/
def State.handlerOk (s : State) (t : Word) : Bool :=
  aligned t .word && executableAt s.cfg.memMap t && (storeFind s.text t.toNat).isSome

/-- The Driver stopped for a reason (R640). -/
def State.stop (s : State) (r : StopReason) : State := { s with driver := .stopped r }

/-- `ucause`, `uepc` and `utval` written with ordinary writes (R630, R632). -/
def State.writeTrapRecord (s : State) (cause epc tval : Word) : State :=
  ((s.csrWrite .ucause cause).csrWrite .uepc epc).csrWrite .utval tval

/-- UPIE <- UIE, UIE <- 0 (R630). -/
def State.stackUie (s : State) : State :=
  let u := s.csrRead .ustatus
  s.csrWrite .ustatus ((u &&& ~~~(0x11 : Word)) ||| ((u &&& 1) <<< 4))

/-- `TrapEntry(E)` (R630). -/
def State.trapEntry (s : State) (r : SyncRecord) : State :=
  let s1 := (s.writeTrapRecord (excCode r.exc) r.savedPc (excTval r.exc)).stackUie
  s1.writePc s1.trapBase

/-- `Unhandled(E)`: the trap CSRs are written and the run stops; `ustatus` and `pc` stay (R631). -/
def State.unhandledTrap (s : State) (r : SyncRecord) : State :=
  (s.writeTrapRecord (excCode r.exc) r.savedPc (excTval r.exc)).stop
    (.exception (excClass r.exc) (excCode r.exc) (excTval r.exc) r.savedPc)

/-- A claimed synchronous record delivered: to the handler if there is one and UIE is set (R624 case 1, R629). -/
def State.deliverSync (s : State) (r : SyncRecord) : State :=
  if s.handlerOk s.trapBase && s.uie then s.trapEntry r else s.unhandledTrap r

/-- TAKING A SYNCHRONOUS EXCEPTION, whoever raises it: the record is registered, `pc` advanced (R623), the record
claimed at the same boundary, its saved PC checked (R615) and the trap delivered (R611, R612, R620, R624). -/
def takeException (e : Exc) (s : State) : Result :=
  match s.ctl.registerSync ⟨e, s.iter.cur⟩ with
  | none => .fault (.internalInconsistency .secondSyncRegistration)
  | some c1 =>
    let s1 := { s with ctl := c1, iter := { s.iter with raised := true } }.writePc (s.iter.cur + 4)
    match s1.ctl.claimSync with
    | none => .fault (.internalInconsistency .claimFailed)
    | some (r, c2) =>
      if r.savedPc ≠ s1.pc - 4 then .fault (.internalInconsistency .savedPcMismatch)
      else .next ({ s1 with ctl := c2 }.deliverSync r)

/-- `uret`: UIE <- UPIE, UPIE <- 1, pc <- uepc (R426). -/
def State.returnFromTrap (s : State) : State :=
  let u := s.csrRead .ustatus
  let s1 := s.csrWrite .ustatus ((u &&& ~~~(0x11 : Word)) ||| ((u >>> 4) &&& 1) ||| 0x10)
  s1.jumpTo (s1.csrRead .uepc)

/-- Where an interrupt of a code goes (R632): vectored only for MODE 1 (R90). -/
def State.interruptTarget (s : State) (code : Word) : Word :=
  if s.csr.utvec &&& 3 = 1 then s.trapBase + 4 * code else s.trapBase

/-- `InterruptEntry(code, p)`; with no handler at the target the run stops, `pc` and `ustatus` unchanged (R632, R633). -/
def State.interruptEntry (s : State) (code p : Word) : State :=
  let target := s.interruptTarget code
  let s1 := s.writeTrapRecord (0x80000000 ||| code) s.pc p
  if s.handlerOk target then
    (s1.csrWrite .ustatus ((s1.csrRead .ustatus &&& ~~~(0x11 : Word)) ||| 0x10)).writePc target
  else s1.stop (.exception .interrupt code p s.pc)

/-! ## A behaviour and its end (R16, R17, R620) -/

/-- How a behaviour ends: it completes, it raises, or it exits the run (R16). -/
inductive Behaviour where
  | done (s : State)
  | raise (e : Exc) (s : State)
  | exit (code : Word) (s : State)

/-- The raw word of the statement the behaviour belongs to: the one at `cur`, where the Driver fetched it (R247, R601,
R620). In a step there is always one; with none there the value is 0. -/
def State.fetchedWord (s : State) : Word := (storeFind s.text s.iter.cur.toNat).getD 0

/-- The start of an iteration's variables: `cur := pc`, the flags cleared (R620). -/
def State.startIter (s : State) : State :=
  { s with iter := ⟨s.pc, false, false, false, some s.seq, s.cycles, s.instret⟩ }

/-- Step 4 of an iteration that did not raise: `pc <- cur + 4` unless the behaviour set it (R623). -/
def State.advance (s : State) : State := if s.iter.pcSet then s else s.writePc (s.iter.cur + 4)

/-- What an instruction's behaviour comes to at its boundary: the advance, the exception taken, or the exit, which
makes no advance (R620, R623, R641). -/
def finish : Behaviour → Result
  | .done s => .next s.advance
  | .raise e s => takeException e s
  | .exit code s => .next (s.stop (.exit code))

end Sys2Proof.Machine
end

