-- ==== Sys2Proof/Machine/Operands.lean ====
section
/-! DEFINITION. Operand forms: immediates, effective addresses, the single-precision view of the floating-point bank,
and the double-word memory operand (10_state.md R71, 30_encoding.md R251-R255, 42_loadstore.md R380,
46_float_double.md R521). -/

namespace Sys2Proof.Machine

/-- `sext_32` of an immediate or a loaded value (R13). -/
def sext (v : BitVec n) : Word := v.signExtend 32

/-- The effective address of a load or store (R380). -/
def State.effAddr (s : State) (rs1 : Reg) (imm : BitVec 12) : Word := s.readX rs1 + sext imm

/-- The target of a branch or `jal`: the instruction's own address plus the offset (R351-R354). -/
def State.relTarget (s : State) (off : BitVec n) : Word := s.pc + sext off

/-- The canonical single NaN an unboxed register reads as (R71). -/
def nanSingle : Word := 0x7FC00000

/-- A single in a 64-bit register: boxed under all ones (R71). -/
def boxSingle (v : Word) : DWord := (0xFFFFFFFF : Word) ++ v

/-- The single a 64-bit register holds (R71). -/
def unboxSingle (v : DWord) : Word := if v.extractLsb' 32 32 = (0xFFFFFFFF : Word) then v.extractLsb' 0 32 else nanSingle

/-- `f32[i]` (R71). -/
def State.readS (s : State) (r : Reg) : Word := unboxSingle (s.readF r)

/-- `f32[i] <- v` (R71). -/
def State.writeS (s : State) (r : Reg) (v : Word) : State := s.writeF r (boxSingle v)

/-- The low word of a floating-point register, with no box check (R463, R486). -/
def State.readLow (s : State) (r : Reg) : Word := (s.readF r).extractLsb' 0 32

/-- The AddressFault of a double-word access, if it has one: alignment to 4, then both words' permission (R521). -/
def State.accessFault64 (s : State) (k : AccessKind) (ea : Word) : Option Exc :=
  if !aligned ea .word then some (.addressFault k .misaligned ea)
  else if !permits s.cfg ea k then some (.addressFault k .access ea)
  else if !permits s.cfg (ea + 4) k then some (.addressFault k .access (ea + 4))
  else none

/-- `Read64(ea)`: two word reads, the low word at `ea` (R521). -/
def State.read64 (s : State) (ea : Word) : Except Exc (DWord × State) :=
  match s.accessFault64 .read ea with
  | some e => .error e
  | none =>
    let lo := s.loadedValue ea .word
    let s1 := s.afterRead ea
    .ok (s1.loadedValue (ea + 4) .word ++ lo, s1.afterRead (ea + 4))

/-- `Write64(ea, v)`: two word writes, both checked before either (R521). -/
def State.write64 (s : State) (ea : Word) (v : DWord) : Except Exc State :=
  match s.accessFault64 .write ea with
  | some e => .error e
  | none => .ok ((s.rawWrite ea .word (v.extractLsb' 0 32)).rawWrite (ea + 4) .word (v.extractLsb' 32 32))

end Sys2Proof.Machine
end

