-- ==== Sys2Proof/Machine/Control.lean ====
section
/-! DEFINITION. Control transfer (41_control.md R350-R359). -/

namespace Sys2Proof.Machine

/-- A jump with a link: `pc <- target`, then `x[rd] <- pc + 4` of the instruction's own address (R352, R353). -/
def jumpAndLink (s : State) (rd : Reg) (target : Word) : Result :=
  finish (.done ((s.startIter.jumpTo target).writeX rd (s.pc + 4)))

/-- A branch: `pc <- pc + imm` where taken; else the Driver advances (R350, R354). -/
def branchIf (taken : Bool) (s : State) (imm : BitVec 13) : Result :=
  finish (.done (if taken then s.startIter.jumpTo (s.relTarget imm) else s.startIter))

/-- R352. -/
def execJal (rd : Reg) (imm : BitVec 21) (s : State) : Result := jumpAndLink s rd (s.relTarget imm)

/-- R353: bit 0 of the sum is cleared. -/
def execJalr (rd rs1 : Reg) (imm : BitVec 12) (s : State) : Result :=
  jumpAndLink s rd ((s.readX rs1 + sext imm) &&& 0xFFFFFFFE)

/-- R354. -/
def execBeq (rs1 rs2 : Reg) (imm : BitVec 13) (s : State) : Result := branchIf (s.readX rs1 == s.readX rs2) s imm

/-- R355. -/
def execBne (rs1 rs2 : Reg) (imm : BitVec 13) (s : State) : Result := branchIf (s.readX rs1 != s.readX rs2) s imm

/-- R356. -/
def execBlt (rs1 rs2 : Reg) (imm : BitVec 13) (s : State) : Result := branchIf ((s.readX rs1).slt (s.readX rs2)) s imm

/-- R357. -/
def execBge (rs1 rs2 : Reg) (imm : BitVec 13) (s : State) : Result := branchIf (!(s.readX rs1).slt (s.readX rs2)) s imm

/-- R358. -/
def execBltu (rs1 rs2 : Reg) (imm : BitVec 13) (s : State) : Result := branchIf ((s.readX rs1).ult (s.readX rs2)) s imm

/-- R359. -/
def execBgeu (rs1 rs2 : Reg) (imm : BitVec 13) (s : State) : Result := branchIf (!(s.readX rs1).ult (s.readX rs2)) s imm

end Sys2Proof.Machine
end

