-- ==== Sys2Proof/Machine/Fpu.lean ====
section
/-! DEFINITION. The reference FPU (45_float_single.md R490-R498): IEEE 754-2008 binary32 and binary64 arithmetic by
exact integer computation and one rounding, with RISC-V's canonical NaN, flags, conversions, minimum and maximum,
and the bit-exact classification. -/

namespace Sys2Proof.Machine

/-- The two formats: single and double (R490). -/
inductive Fmt where
  | S | D
  deriving DecidableEq, Repr

/-- A resolved rounding mode (R460). -/
inductive Rm where
  | rne | rtz | rdn | rup | rmm
  deriving DecidableEq, Repr

/-- The width of a format's bit patterns (R490). -/
abbrev Fmt.width : Fmt → Nat
  | .S => 32
  | .D => 64

/-- The precision in bits, the hidden bit included: binary32 and binary64 (R491). -/
def Fmt.prec : Fmt → Nat
  | .S => 24
  | .D => 53

/-- The exponent field's width (R491). -/
def Fmt.expBits : Fmt → Nat
  | .S => 8
  | .D => 11

/-- The exponent bias, which is also the largest exponent (R491). -/
def Fmt.bias (f : Fmt) : Nat := 2 ^ (f.expBits - 1) - 1

/-- The exponent of the last place of the smallest normal numbers and of every subnormal one. -/
def Fmt.minQuantum (f : Fmt) : Int := 2 - (f.bias : Int) - (f.prec : Int)

/-- The bit pattern of +∞. -/
def Fmt.infBits (f : Fmt) : Nat := (2 ^ f.expBits - 1) * 2 ^ (f.prec - 1)

/-- The canonical NaN: 0x7FC00000 for S, 0x7FF8000000000000 for D (R492). -/
def canonicalNan (f : Fmt) : BitVec f.width := BitVec.ofNat f.width (f.infBits + 2 ^ (f.prec - 2))

/-- Invalid operation, divide by zero, overflow, underflow, inexact (R92, R461). -/
def flagNV : Fflags := 0x10
/-- R92. -/
def flagDZ : Fflags := 0x08
/-- R92. -/
def flagOF : Fflags := 0x04
/-- R92. -/
def flagUF : Fflags := 0x02
/-- R92. -/
def flagNX : Fflags := 0x01

/-- A flag set by a condition. -/
def flagIf (b : Bool) (f : Fflags) : Fflags := if b then f else 0

/-! ## Values -/

/-- What a bit pattern stands for. A finite value is (-1)^neg · m · 2^e, exactly; m = 0 is a signed zero. -/
inductive FpVal where
  | nan (signalling : Bool)
  | inf (neg : Bool)
  | fin (neg : Bool) (m : Nat) (e : Int)
  deriving DecidableEq, Repr

/-- The sign bit. -/
def signOf (f : Fmt) (b : BitVec f.width) : Bool := b.getLsbD (f.width - 1)

/-- The fraction field. -/
def fracOf (f : Fmt) (b : BitVec f.width) : Nat := b.toNat % 2 ^ (f.prec - 1)

/-- The exponent field. -/
def expOf (f : Fmt) (b : BitVec f.width) : Nat := b.toNat / 2 ^ (f.prec - 1) % 2 ^ f.expBits

/-- The value of a bit pattern (R491); a NaN with a clear top fraction bit is signalling (R492). -/
def unpack (f : Fmt) (b : BitVec f.width) : FpVal :=
  let frac := fracOf f b
  let ex := expOf f b
  if ex = 2 ^ f.expBits - 1 then
    if frac = 0 then .inf (signOf f b) else .nan (frac < 2 ^ (f.prec - 2))
  else if ex = 0 then .fin (signOf f b) frac f.minQuantum
  else .fin (signOf f b) (frac + 2 ^ (f.prec - 1)) (f.minQuantum + ex - 1)

/-- The value is a signalling NaN. -/
def FpVal.isSnan : FpVal → Bool
  | .nan q => q
  | _ => false

/-- The value is a NaN. -/
def FpVal.isNan : FpVal → Bool
  | .nan _ => true
  | _ => false

/-- A magnitude with a sign. -/
def signed (f : Fmt) (neg : Bool) (mag : Nat) : BitVec f.width :=
  BitVec.ofNat f.width (if neg then 2 ^ (f.width - 1) + mag else mag)

/-- ±0. -/
def zeroOf (f : Fmt) (neg : Bool) : BitVec f.width := signed f neg 0

/-- ±∞. -/
def infOf (f : Fmt) (neg : Bool) : BitVec f.width := signed f neg f.infBits

/-- An invalid operation: the canonical NaN with NV (R492). -/
def invalid (f : Fmt) : BitVec f.width × Fflags := (canonicalNan f, flagNV)

/-- An operation on a NaN operand: the canonical NaN, with NV only for a signalling one (R492). -/
def nanResult (f : Fmt) (signalling : Bool) : BitVec f.width × Fflags := (canonicalNan f, flagIf signalling flagNV)

/-! ## Rounding (R460, R491) -/

/-- Whether a magnitude q + rem / 2^sh is rounded away from zero. -/
def roundsUp (r : Rm) (neg : Bool) (q rem sh : Nat) : Bool :=
  match r with
  | .rne => 2 * rem > 2 ^ sh || (2 * rem == 2 ^ sh && q % 2 == 1)
  | .rtz => false
  | .rdn => neg && rem != 0
  | .rup => !neg && rem != 0
  | .rmm => decide (2 * rem ≥ 2 ^ sh)

/-- m · 2^e as a multiple of 2^q, rounded, and whether that was inexact. -/
def quantize (r : Rm) (neg : Bool) (m : Nat) (e q : Int) : Nat × Bool :=
  if q ≤ e then (m <<< (e - q).toNat, false)
  else
    let sh := (q - e).toNat
    let n := m / 2 ^ sh
    let rem := m % 2 ^ sh
    (if roundsUp r neg n rem sh then n + 1 else n, rem != 0)

/-- The result of an overflow: ∞ or the largest finite number, by mode and sign, with OF and NX (R491). -/
def overflow (f : Fmt) (r : Rm) (neg : Bool) : BitVec f.width × Fflags :=
  let toInf := match r with
    | .rne | .rmm => true
    | .rtz => false
    | .rdn => neg
    | .rup => !neg
  (signed f neg (if toInf then f.infBits else f.infBits - 1), flagOF ||| flagNX)

/-- The exact value (-1)^neg · m · 2^e rounded once to the format. Tininess is detected after rounding: the value is
tiny if it would round below the smallest normal number with an unbounded exponent; UF needs it inexact too (R491). -/
def roundTo (f : Fmt) (r : Rm) (neg : Bool) (m : Nat) (e : Int) : BitVec f.width × Fflags :=
  if m = 0 then (zeroOf f neg, 0)
  else
    let p : Int := f.prec
    let freeQ := e + Nat.log2 m - (p - 1)
    let q := max freeQ f.minQuantum
    let (n, inexact) := quantize r neg m e q
    let (nFree, _) := quantize r neg m e freeQ
    let tiny := decide ((if nFree = 2 ^ f.prec then freeQ + 1 else freeQ) < f.minQuantum)
    let mag := (q - f.minQuantum).toNat * 2 ^ (f.prec - 1) + n
    if mag ≥ f.infBits then overflow f r neg
    else (signed f neg mag, flagIf (tiny && inexact) flagUF ||| flagIf inexact flagNX)

/-! ## Arithmetic (R490-R493) -/

/-- A signed exact integer. -/
def signedInt (neg : Bool) (m : Nat) : Int := if neg then -(m : Int) else m

/-- The exact sum of two finite values, rounded once. An exact zero takes the common sign of the addends; of unlike
signs it is +0, but -0 under RDN (R469). -/
def addFinite (f : Fmt) (r : Rm) (na : Bool) (ma : Nat) (ea : Int) (nb : Bool) (mb : Nat) (eb : Int) :
    BitVec f.width × Fflags :=
  let e := min ea eb
  let s := signedInt na (ma <<< (ea - e).toNat) + signedInt nb (mb <<< (eb - e).toNat)
  if s = 0 then (zeroOf f (if na = nb then na else r = .rdn), 0)
  else roundTo f r (s < 0) s.natAbs e

/-- The sum of two values. -/
def addVal (f : Fmt) (r : Rm) : FpVal → FpVal → BitVec f.width × Fflags
  | .nan p, b => nanResult f (p || b.isSnan)
  | a, .nan q => nanResult f (a.isSnan || q)
  | .inf na, .inf nb => if na = nb then (infOf f na, 0) else invalid f
  | .inf na, .fin _ _ _ => (infOf f na, 0)
  | .fin _ _ _, .inf nb => (infOf f nb, 0)
  | .fin na ma ea, .fin nb mb eb => addFinite f r na ma ea nb mb eb

/-- The bit pattern with its sign bit flipped. -/
def flipSign (f : Fmt) (b : BitVec f.width) : BitVec f.width := b ^^^ BitVec.ofNat f.width (2 ^ (f.width - 1))

/-- FPU.add (R490). -/
def fpuAdd (f : Fmt) (r : Rm) (a b : BitVec f.width) : BitVec f.width × Fflags := addVal f r (unpack f a) (unpack f b)

/-- FPU.sub (R490): a sum with the second sign flipped. -/
def fpuSub (f : Fmt) (r : Rm) (a b : BitVec f.width) : BitVec f.width × Fflags := fpuAdd f r a (flipSign f b)

/-- FPU.mul (R490). -/
def fpuMul (f : Fmt) (r : Rm) (a b : BitVec f.width) : BitVec f.width × Fflags :=
  match unpack f a, unpack f b with
  | .nan p, b => nanResult f (p || b.isSnan)
  | a, .nan q => nanResult f (a.isSnan || q)
  | .inf na, .inf nb => (infOf f (na != nb), 0)
  | .inf na, .fin nb mb _ => if mb = 0 then invalid f else (infOf f (na != nb), 0)
  | .fin na ma _, .inf nb => if ma = 0 then invalid f else (infOf f (na != nb), 0)
  | .fin na ma ea, .fin nb mb eb => roundTo f r (na != nb) (ma * mb) (ea + eb)

/-- A quotient of integers with enough bits for one rounding, its last bit set where the division leaves a rest. -/
def stickyDiv (f : Fmt) (ma mb : Nat) : Nat :=
  let k := 2 * f.prec + 4
  2 * ((ma <<< k) / mb) + (if (ma <<< k) % mb = 0 then 0 else 1)

/-- FPU.div (R490, R491). -/
def fpuDiv (f : Fmt) (r : Rm) (a b : BitVec f.width) : BitVec f.width × Fflags :=
  match unpack f a, unpack f b with
  | .nan p, b => nanResult f (p || b.isSnan)
  | a, .nan q => nanResult f (a.isSnan || q)
  | .inf _, .inf _ => invalid f
  | .inf na, .fin nb _ _ => (infOf f (na != nb), 0)
  | .fin na _ _, .inf nb => (zeroOf f (na != nb), 0)
  | .fin na ma ea, .fin nb mb eb =>
    if mb = 0 then (if ma = 0 then invalid f else (infOf f (na != nb), flagDZ))
    else roundTo f r (na != nb) (stickyDiv f ma mb) (ea - eb - (2 * f.prec + 4 : Nat) - 1)

/-- The integer square root, one result bit at a time from bit `i - 1` down, above the partial root `acc`. -/
def isqrtFrom (n : Nat) : Nat → Nat → Nat
  | 0, acc => acc
  | i + 1, acc => isqrtFrom n i (if (acc + 2 ^ i) * (acc + 2 ^ i) ≤ n then acc + 2 ^ i else acc)

/-- FPU.sqrt (R490): sqrt(±0) = ±0; a negative value is invalid (R472). -/
def fpuSqrt (f : Fmt) (r : Rm) (a : BitVec f.width) : BitVec f.width × Fflags :=
  match unpack f a with
  | .nan p => nanResult f p
  | .inf neg => if neg then invalid f else (infOf f false, 0)
  | .fin neg m e =>
    if m = 0 then (zeroOf f neg, 0)
    else if neg then invalid f
    else
      let k := 2 * f.prec + 4 + (if e % 2 = 0 then 0 else 1)
      let n := m <<< k
      let root := isqrtFrom n (2 * f.prec + 4) 0
      roundTo f r false (2 * root + (if root * root = n then 0 else 1)) ((e - k) / 2 - 1)

/-- FPU.fma: a × b + c with one rounding; ∞ × 0 is invalid even where c is a quiet NaN (R493). -/
def fpuFma (f : Fmt) (r : Rm) (a b c : BitVec f.width) : BitVec f.width × Fflags :=
  let vc := unpack f c
  match unpack f a, unpack f b with
  | .nan p, b => nanResult f (p || b.isSnan || vc.isSnan)
  | a, .nan q => nanResult f (a.isSnan || q || vc.isSnan)
  | .inf na, .inf nb => addVal f r (.inf (na != nb)) vc
  | .inf na, .fin nb mb _ => if mb = 0 then invalid f else addVal f r (.inf (na != nb)) vc
  | .fin na ma _, .inf nb => if ma = 0 then invalid f else addVal f r (.inf (na != nb)) vc
  | .fin na ma ea, .fin nb mb eb => addVal f r (.fin (na != nb) (ma * mb) (ea + eb)) vc

/-! ## Comparison, minimum and maximum (R496, R497) -/

/-- The order of two patterns that are no NaN: signed magnitude, the two zeros equal. -/
def orderKey (f : Fmt) (b : BitVec f.width) : Int := signedInt (signOf f b) (b.toNat % 2 ^ (f.width - 1))

/-- Some operand is a NaN. -/
def anyNan (f : Fmt) (a b : BitVec f.width) : Bool := (unpack f a).isNan || (unpack f b).isNan

/-- Some operand is a signalling NaN. -/
def anySnan (f : Fmt) (a b : BitVec f.width) : Bool := (unpack f a).isSnan || (unpack f b).isSnan

/-- FPU.eq: quiet (R497). -/
def fpuEq (f : Fmt) (a b : BitVec f.width) : Bool × Fflags :=
  if anyNan f a b then (false, flagIf (anySnan f a b) flagNV) else (orderKey f a = orderKey f b, 0)

/-- FPU.lt: signalling (R497). -/
def fpuLt (f : Fmt) (a b : BitVec f.width) : Bool × Fflags :=
  if anyNan f a b then (false, flagNV) else (orderKey f a < orderKey f b, 0)

/-- FPU.le: signalling (R497). -/
def fpuLe (f : Fmt) (a b : BitVec f.width) : Bool × Fflags :=
  if anyNan f a b then (false, flagNV) else (orderKey f a ≤ orderKey f b, 0)

/-- -0 before +0, else by value (R496). -/
def before (f : Fmt) (a b : BitVec f.width) : Bool :=
  if orderKey f a = orderKey f b then signOf f a && !signOf f b else orderKey f a < orderKey f b

/-- FPU.min (R496). -/
def fpuMin (f : Fmt) (a b : BitVec f.width) : BitVec f.width × Fflags :=
  let v :=
    if (unpack f a).isNan && (unpack f b).isNan then canonicalNan f
    else if (unpack f a).isNan then b
    else if (unpack f b).isNan then a
    else if before f b a then b else a
  (v, flagIf (anySnan f a b) flagNV)

/-- FPU.max (R496). -/
def fpuMax (f : Fmt) (a b : BitVec f.width) : BitVec f.width × Fflags :=
  let v :=
    if (unpack f a).isNan && (unpack f b).isNan then canonicalNan f
    else if (unpack f a).isNan then b
    else if (unpack f b).isNan then a
    else if before f a b then b else a
  (v, flagIf (anySnan f a b) flagNV)

/-! ## Conversions (R494, R495) -/

/-- The least and the greatest value of a 32-bit target. -/
def intMin (isSigned : Bool) : Int := if isSigned then -(2 ^ 31) else 0
/-- R494. -/
def intMax (isSigned : Bool) : Int := if isSigned then 2 ^ 31 - 1 else 2 ^ 32 - 1

/-- FPU.to_int: rounded to an integer, saturated with NV outside the range (R494). -/
def fpuToInt (f : Fmt) (isSigned : Bool) (r : Rm) (a : BitVec f.width) : Word × Fflags :=
  let lowest := (BitVec.ofInt 32 (intMin isSigned), flagNV)
  let highest := (BitVec.ofInt 32 (intMax isSigned), flagNV)
  match unpack f a with
  | .nan _ => highest
  | .inf neg => if neg then lowest else highest
  | .fin neg m e =>
    let (n, inexact) := quantize r neg m e 0
    let v := signedInt neg n
    if v < intMin isSigned then lowest
    else if v > intMax isSigned then highest
    else (BitVec.ofInt 32 v, flagIf inexact flagNX)

/-- FPU.from_int (R495). -/
def fpuFromInt (f : Fmt) (isSigned : Bool) (r : Rm) (w : Word) : BitVec f.width × Fflags :=
  let v : Int := if isSigned then w.toInt else w.toNat
  roundTo f r (v < 0) v.natAbs 0

/-- A value rounded into another format; a NaN is canonical, with NV where it was signalling (R492, R495). -/
def convertTo (g : Fmt) (r : Rm) : FpVal → BitVec g.width × Fflags
  | .nan q => nanResult g q
  | .inf neg => (infOf g neg, 0)
  | .fin neg m e => roundTo g r neg m e

/-- FPU.s_to_d: exact (R495). -/
def fpuSToD (a : BitVec 32) : BitVec 64 × Fflags := convertTo .D .rne (unpack .S a)

/-- FPU.d_to_s (R495). -/
def fpuDToS (r : Rm) (a : BitVec 64) : BitVec 32 × Fflags := convertTo .S r (unpack .D a)

/-! ## Bit-exact operations (R498) -/

/-- The one-hot class mask (R498). -/
def classMask (f : Fmt) (b : BitVec f.width) : Word :=
  match unpack f b with
  | .nan true => 0x100
  | .nan false => 0x200
  | .inf true => 0x001
  | .inf false => 0x080
  | .fin neg m _ =>
    if m = 0 then (if neg then 0x008 else 0x010)
    else if expOf f b = 0 then (if neg then 0x004 else 0x020)
    else (if neg then 0x002 else 0x040)

/-- The magnitude of `a` with the given sign bit (R473-R475, R533-R535). -/
def withSign (f : Fmt) (a : BitVec f.width) (neg : Bool) : BitVec f.width :=
  signed f neg (a.toNat % 2 ^ (f.width - 1))

end Sys2Proof.Machine
end

