-- ==== Sys2Proof/Machine/Flags.lean ====
section
/-! DEFINITION. The rounding mode and the accrued exception flags, the machine's only condition flags
(10_state.md R92, 45_float_single.md R460, R461). -/

namespace Sys2Proof.Machine

/-- A rounding-mode code; 101, 110 and 111 name none (R92, R460). -/
def rmOfCode (code : BitVec 3) : Option Rm :=
  if code = 0b000 then some .rne
  else if code = 0b001 then some .rtz
  else if code = 0b010 then some .rdn
  else if code = 0b011 then some .rup
  else if code = 0b100 then some .rmm
  else none

/-- `resolve_rm(rm)`: the static mode, or `frm` for 111; none where the behaviour raises IllegalInstruction (R460). -/
def State.resolveRm (s : State) (rm : BitVec 3) : Option Rm :=
  if rm = 0b111 then rmOfCode ((s.csrRead .frm).setWidth 3) else rmOfCode rm

/-- `accrue(fl)`: the flags ORed into `fflags` by an ordinary write (R461). -/
def State.accrue (s : State) (fl : Fflags) : State :=
  if fl = 0 then s else s.csrWrite .fflags (s.csrRead .fflags ||| fl.setWidth 32)

/-- A behaviour under a resolved rounding mode; IllegalInstruction, with the fetched word, before anything is read
where the mode is invalid (R460, R601). -/
def withRm (rm : BitVec 3) (s : State) (k : Rm → State) : Behaviour :=
  match s.resolveRm rm with
  | none => .raise (.illegalInstruction s.fetchedWord) s
  | some r => .done (k r)

/-- A single-precision result written, then its flags accrued (R461). -/
def State.retireS (s : State) (rd : Reg) (res : Word × Fflags) : State := (s.writeS rd res.1).accrue res.2

/-- A double-precision result written, then its flags accrued (R461, R520). -/
def State.retireD (s : State) (rd : Reg) (res : DWord × Fflags) : State := (s.writeF rd res.1).accrue res.2

/-- An integer result of a floating-point instruction written, then its flags accrued (R461). -/
def State.retireX (s : State) (rd : Reg) (res : Word × Fflags) : State := (s.writeX rd res.1).accrue res.2

/-- A comparison's bit as an integer result (R478). -/
def bitResult (res : Bool × Fflags) : Word × Fflags := (if res.1 then 1 else 0, res.2)

end Sys2Proof.Machine
end

