-- ==== Sys2Proof/Machine/Integer.lean ====
section
/-! DEFINITION. Integer computational instructions (40_integer.md R300-R326). -/

namespace Sys2Proof.Machine

/-- A behaviour that writes one general register and nothing else (R300, R302). -/
def writesX (s : State) (rd : Reg) (v : Word) : Result := finish (.done (s.startIter.writeX rd v))

/-- A comparison's result: 1 or 0. -/
def ofBool (b : Bool) : Word := if b then 1 else 0

/-- A register's shift amount: its low five bits (R319). -/
def shiftOf (v : Word) : Nat := (v.extractLsb' 0 5).toNat

/-- R306. -/
def execLui (rd : Reg) (imm : Word) (s : State) : Result := writesX s rd imm

/-- R307. -/
def execAuipc (rd : Reg) (imm : Word) (s : State) : Result := writesX s rd (s.pc + imm)

/-- R308. -/
def execAddi (rd rs1 : Reg) (imm : BitVec 12) (s : State) : Result := writesX s rd (s.readX rs1 + sext imm)

/-- R309. -/
def execSlti (rd rs1 : Reg) (imm : BitVec 12) (s : State) : Result :=
  writesX s rd (ofBool ((s.readX rs1).slt (sext imm)))

/-- R310. -/
def execSltiu (rd rs1 : Reg) (imm : BitVec 12) (s : State) : Result :=
  writesX s rd (ofBool ((s.readX rs1).ult (sext imm)))

/-- R311. -/
def execXori (rd rs1 : Reg) (imm : BitVec 12) (s : State) : Result := writesX s rd (s.readX rs1 ^^^ sext imm)

/-- R312. -/
def execOri (rd rs1 : Reg) (imm : BitVec 12) (s : State) : Result := writesX s rd (s.readX rs1 ||| sext imm)

/-- R313. -/
def execAndi (rd rs1 : Reg) (imm : BitVec 12) (s : State) : Result := writesX s rd (s.readX rs1 &&& sext imm)

/-- R314. -/
def execSlli (rd rs1 : Reg) (shamt : BitVec 5) (s : State) : Result := writesX s rd (s.readX rs1 <<< shamt.toNat)

/-- R315. -/
def execSrli (rd rs1 : Reg) (shamt : BitVec 5) (s : State) : Result := writesX s rd (s.readX rs1 >>> shamt.toNat)

/-- R316. -/
def execSrai (rd rs1 : Reg) (shamt : BitVec 5) (s : State) : Result :=
  writesX s rd ((s.readX rs1).sshiftRight shamt.toNat)

/-- R317, Scenario A. -/
def execAdd (rd rs1 rs2 : Reg) (s : State) : Result := writesX s rd (s.readX rs1 + s.readX rs2)

/-- R318. -/
def execSub (rd rs1 rs2 : Reg) (s : State) : Result := writesX s rd (s.readX rs1 - s.readX rs2)

/-- R319. -/
def execSll (rd rs1 rs2 : Reg) (s : State) : Result := writesX s rd (s.readX rs1 <<< shiftOf (s.readX rs2))

/-- R320. -/
def execSlt (rd rs1 rs2 : Reg) (s : State) : Result := writesX s rd (ofBool ((s.readX rs1).slt (s.readX rs2)))

/-- R321. -/
def execSltu (rd rs1 rs2 : Reg) (s : State) : Result := writesX s rd (ofBool ((s.readX rs1).ult (s.readX rs2)))

/-- R322. -/
def execXor (rd rs1 rs2 : Reg) (s : State) : Result := writesX s rd (s.readX rs1 ^^^ s.readX rs2)

/-- R323. -/
def execSrl (rd rs1 rs2 : Reg) (s : State) : Result := writesX s rd (s.readX rs1 >>> shiftOf (s.readX rs2))

/-- R324. -/
def execSra (rd rs1 rs2 : Reg) (s : State) : Result :=
  writesX s rd ((s.readX rs1).sshiftRight (shiftOf (s.readX rs2)))

/-- R325. -/
def execOr (rd rs1 rs2 : Reg) (s : State) : Result := writesX s rd (s.readX rs1 ||| s.readX rs2)

/-- R326. -/
def execAnd (rd rs1 rs2 : Reg) (s : State) : Result := writesX s rd (s.readX rs1 &&& s.readX rs2)

end Sys2Proof.Machine
end

