-- ==== Sys2Proof/Machine/FloatDouble.lean ====
section
/-! DEFINITION. Double-precision floating-point instructions (46_float_double.md R520-R547). -/

namespace Sys2Proof.Machine

/-- R522. -/
def execFld (rd rs1 : Reg) (imm : BitVec 12) (s : State) : Result :=
  finish <|
    match s.startIter.read64 (s.effAddr rs1 imm) with
    | .error e => .raise e s.startIter
    | .ok (v, t) => .done (t.writeF rd v)

/-- R523. -/
def execFsd (rs1 rs2 : Reg) (imm : BitVec 12) (s : State) : Result :=
  finish <|
    match s.startIter.write64 (s.effAddr rs1 imm) (s.readF rs2) with
    | .error e => .raise e s.startIter
    | .ok t => .done t

/-- R524. -/
def execFmaddD (rd rs1 rs2 rs3 : Reg) (rm : BitVec 3) (s : State) : Result :=
  finish (withRm rm s.startIter fun r =>
    s.startIter.retireD rd (fpuFma .D r (s.readF rs1) (s.readF rs2) (s.readF rs3)))

/-- R525. -/
def execFmsubD (rd rs1 rs2 rs3 : Reg) (rm : BitVec 3) (s : State) : Result :=
  finish (withRm rm s.startIter fun r =>
    s.startIter.retireD rd (fpuFma .D r (s.readF rs1) (s.readF rs2) (flipSign .D (s.readF rs3))))

/-- R526. -/
def execFnmsubD (rd rs1 rs2 rs3 : Reg) (rm : BitVec 3) (s : State) : Result :=
  finish (withRm rm s.startIter fun r =>
    s.startIter.retireD rd (fpuFma .D r (flipSign .D (s.readF rs1)) (s.readF rs2) (s.readF rs3)))

/-- R527. -/
def execFnmaddD (rd rs1 rs2 rs3 : Reg) (rm : BitVec 3) (s : State) : Result :=
  finish (withRm rm s.startIter fun r =>
    s.startIter.retireD rd (fpuFma .D r (flipSign .D (s.readF rs1)) (s.readF rs2) (flipSign .D (s.readF rs3))))

/-- R528. -/
def execFaddD (rd rs1 rs2 : Reg) (rm : BitVec 3) (s : State) : Result :=
  finish (withRm rm s.startIter fun r =>
    s.startIter.retireD rd (fpuAdd .D r (s.readF rs1) (s.readF rs2)))

/-- R529. -/
def execFsubD (rd rs1 rs2 : Reg) (rm : BitVec 3) (s : State) : Result :=
  finish (withRm rm s.startIter fun r =>
    s.startIter.retireD rd (fpuSub .D r (s.readF rs1) (s.readF rs2)))

/-- R530. -/
def execFmulD (rd rs1 rs2 : Reg) (rm : BitVec 3) (s : State) : Result :=
  finish (withRm rm s.startIter fun r =>
    s.startIter.retireD rd (fpuMul .D r (s.readF rs1) (s.readF rs2)))

/-- R531. -/
def execFdivD (rd rs1 rs2 : Reg) (rm : BitVec 3) (s : State) : Result :=
  finish (withRm rm s.startIter fun r =>
    s.startIter.retireD rd (fpuDiv .D r (s.readF rs1) (s.readF rs2)))

/-- R532. -/
def execFsqrtD (rd rs1 : Reg) (rm : BitVec 3) (s : State) : Result :=
  finish (withRm rm s.startIter fun r => s.startIter.retireD rd (fpuSqrt .D r (s.readF rs1)))

/-- R533. -/
def execFsgnjD (rd rs1 rs2 : Reg) (s : State) : Result :=
  finish (.done (s.startIter.writeF rd (withSign .D (s.readF rs1) (signOf .D (s.readF rs2)))))

/-- R534. -/
def execFsgnjnD (rd rs1 rs2 : Reg) (s : State) : Result :=
  finish (.done (s.startIter.writeF rd (withSign .D (s.readF rs1) (!signOf .D (s.readF rs2)))))

/-- R535. -/
def execFsgnjxD (rd rs1 rs2 : Reg) (s : State) : Result :=
  finish (.done (s.startIter.writeF rd (withSign .D (s.readF rs1) (signOf .D (s.readF rs1) != signOf .D (s.readF rs2)))))

/-- R536. -/
def execFminD (rd rs1 rs2 : Reg) (s : State) : Result :=
  finish (.done (s.startIter.retireD rd (fpuMin .D (s.readF rs1) (s.readF rs2))))

/-- R537. -/
def execFmaxD (rd rs1 rs2 : Reg) (s : State) : Result :=
  finish (.done (s.startIter.retireD rd (fpuMax .D (s.readF rs1) (s.readF rs2))))

/-- R540. -/
def execFeqD (rd rs1 rs2 : Reg) (s : State) : Result :=
  finish (.done (s.startIter.retireX rd (bitResult (fpuEq .D (s.readF rs1) (s.readF rs2)))))

/-- R541. -/
def execFltD (rd rs1 rs2 : Reg) (s : State) : Result :=
  finish (.done (s.startIter.retireX rd (bitResult (fpuLt .D (s.readF rs1) (s.readF rs2)))))

/-- R542. -/
def execFleD (rd rs1 rs2 : Reg) (s : State) : Result :=
  finish (.done (s.startIter.retireX rd (bitResult (fpuLe .D (s.readF rs1) (s.readF rs2)))))

/-- R543. -/
def execFclassD (rd rs1 : Reg) (s : State) : Result := writesX s rd (classMask .D (s.readF rs1))

/-- R538: the single is NaN-boxed (R520). -/
def execFcvtSD (rd rs1 : Reg) (rm : BitVec 3) (s : State) : Result :=
  finish (withRm rm s.startIter fun r => s.startIter.retireS rd (fpuDToS r (s.readF rs1)))

/-- R539: exact, but an invalid `rm` still raises. -/
def execFcvtDS (rd rs1 : Reg) (rm : BitVec 3) (s : State) : Result :=
  finish (withRm rm s.startIter fun _ => s.startIter.retireD rd (fpuSToD (s.readS rs1)))

/-- R544. -/
def execFcvtWD (rd rs1 : Reg) (rm : BitVec 3) (s : State) : Result :=
  finish (withRm rm s.startIter fun r =>
    s.startIter.retireX rd (fpuToInt .D true r (s.readF rs1)))

/-- R545. -/
def execFcvtWuD (rd rs1 : Reg) (rm : BitVec 3) (s : State) : Result :=
  finish (withRm rm s.startIter fun r =>
    s.startIter.retireX rd (fpuToInt .D false r (s.readF rs1)))

/-- R546. -/
def execFcvtDW (rd rs1 : Reg) (rm : BitVec 3) (s : State) : Result :=
  finish (withRm rm s.startIter fun r =>
    s.startIter.retireD rd (fpuFromInt .D true r (s.readX rs1)))

/-- R547. -/
def execFcvtDWu (rd rs1 : Reg) (rm : BitVec 3) (s : State) : Result :=
  finish (withRm rm s.startIter fun r =>
    s.startIter.retireD rd (fpuFromInt .D false r (s.readX rs1)))

end Sys2Proof.Machine
end

