-- ==== Sys2Proof/Machine/FloatSingle.lean ====
section
/-! DEFINITION. Single-precision floating-point instructions (45_float_single.md R460-R498). -/

namespace Sys2Proof.Machine

/-- R462: the loaded word is NaN-boxed. -/
def execFlw (rd rs1 : Reg) (imm : BitVec 12) (s : State) : Result :=
  finish <|
    match s.startIter.memRead (s.effAddr rs1 imm) .word with
    | .error e => .raise e s.startIter
    | .ok (v, t) => .done (t.writeS rd v)

/-- R463: the low word, with no box check. -/
def execFsw (rs1 rs2 : Reg) (imm : BitVec 12) (s : State) : Result :=
  finish <|
    match s.startIter.memWrite (s.effAddr rs1 imm) .word (s.readLow rs2) with
    | .error e => .raise e s.startIter
    | .ok t => .done t

/-- R464. -/
def execFmaddS (rd rs1 rs2 rs3 : Reg) (rm : BitVec 3) (s : State) : Result :=
  finish (withRm rm s.startIter fun r =>
    s.startIter.retireS rd (fpuFma .S r (s.readS rs1) (s.readS rs2) (s.readS rs3)))

/-- R465. -/
def execFmsubS (rd rs1 rs2 rs3 : Reg) (rm : BitVec 3) (s : State) : Result :=
  finish (withRm rm s.startIter fun r =>
    s.startIter.retireS rd (fpuFma .S r (s.readS rs1) (s.readS rs2) (flipSign .S (s.readS rs3))))

/-- R466. -/
def execFnmsubS (rd rs1 rs2 rs3 : Reg) (rm : BitVec 3) (s : State) : Result :=
  finish (withRm rm s.startIter fun r =>
    s.startIter.retireS rd (fpuFma .S r (flipSign .S (s.readS rs1)) (s.readS rs2) (s.readS rs3)))

/-- R467. -/
def execFnmaddS (rd rs1 rs2 rs3 : Reg) (rm : BitVec 3) (s : State) : Result :=
  finish (withRm rm s.startIter fun r =>
    s.startIter.retireS rd (fpuFma .S r (flipSign .S (s.readS rs1)) (s.readS rs2) (flipSign .S (s.readS rs3))))

/-- R468. -/
def execFaddS (rd rs1 rs2 : Reg) (rm : BitVec 3) (s : State) : Result :=
  finish (withRm rm s.startIter fun r =>
    s.startIter.retireS rd (fpuAdd .S r (s.readS rs1) (s.readS rs2)))

/-- R469. -/
def execFsubS (rd rs1 rs2 : Reg) (rm : BitVec 3) (s : State) : Result :=
  finish (withRm rm s.startIter fun r =>
    s.startIter.retireS rd (fpuSub .S r (s.readS rs1) (s.readS rs2)))

/-- R470. -/
def execFmulS (rd rs1 rs2 : Reg) (rm : BitVec 3) (s : State) : Result :=
  finish (withRm rm s.startIter fun r =>
    s.startIter.retireS rd (fpuMul .S r (s.readS rs1) (s.readS rs2)))

/-- R471. -/
def execFdivS (rd rs1 rs2 : Reg) (rm : BitVec 3) (s : State) : Result :=
  finish (withRm rm s.startIter fun r =>
    s.startIter.retireS rd (fpuDiv .S r (s.readS rs1) (s.readS rs2)))

/-- R472. -/
def execFsqrtS (rd rs1 : Reg) (rm : BitVec 3) (s : State) : Result :=
  finish (withRm rm s.startIter fun r => s.startIter.retireS rd (fpuSqrt .S r (s.readS rs1)))

/-- R473. -/
def execFsgnjS (rd rs1 rs2 : Reg) (s : State) : Result :=
  finish (.done (s.startIter.writeS rd (withSign .S (s.readS rs1) (signOf .S (s.readS rs2)))))

/-- R474. -/
def execFsgnjnS (rd rs1 rs2 : Reg) (s : State) : Result :=
  finish (.done (s.startIter.writeS rd (withSign .S (s.readS rs1) (!signOf .S (s.readS rs2)))))

/-- R475. -/
def execFsgnjxS (rd rs1 rs2 : Reg) (s : State) : Result :=
  finish (.done (s.startIter.writeS rd (withSign .S (s.readS rs1) (signOf .S (s.readS rs1) != signOf .S (s.readS rs2)))))

/-- R476. -/
def execFminS (rd rs1 rs2 : Reg) (s : State) : Result :=
  finish (.done (s.startIter.retireS rd (fpuMin .S (s.readS rs1) (s.readS rs2))))

/-- R477. -/
def execFmaxS (rd rs1 rs2 : Reg) (s : State) : Result :=
  finish (.done (s.startIter.retireS rd (fpuMax .S (s.readS rs1) (s.readS rs2))))

/-- R478. -/
def execFeqS (rd rs1 rs2 : Reg) (s : State) : Result :=
  finish (.done (s.startIter.retireX rd (bitResult (fpuEq .S (s.readS rs1) (s.readS rs2)))))

/-- R479. -/
def execFltS (rd rs1 rs2 : Reg) (s : State) : Result :=
  finish (.done (s.startIter.retireX rd (bitResult (fpuLt .S (s.readS rs1) (s.readS rs2)))))

/-- R480. -/
def execFleS (rd rs1 rs2 : Reg) (s : State) : Result :=
  finish (.done (s.startIter.retireX rd (bitResult (fpuLe .S (s.readS rs1) (s.readS rs2)))))

/-- R481. -/
def execFclassS (rd rs1 : Reg) (s : State) : Result := writesX s rd (classMask .S (s.readS rs1))

/-- R482. -/
def execFcvtWS (rd rs1 : Reg) (rm : BitVec 3) (s : State) : Result :=
  finish (withRm rm s.startIter fun r =>
    s.startIter.retireX rd (fpuToInt .S true r (s.readS rs1)))

/-- R483. -/
def execFcvtWuS (rd rs1 : Reg) (rm : BitVec 3) (s : State) : Result :=
  finish (withRm rm s.startIter fun r =>
    s.startIter.retireX rd (fpuToInt .S false r (s.readS rs1)))

/-- R484. -/
def execFcvtSW (rd rs1 : Reg) (rm : BitVec 3) (s : State) : Result :=
  finish (withRm rm s.startIter fun r =>
    s.startIter.retireS rd (fpuFromInt .S true r (s.readX rs1)))

/-- R485. -/
def execFcvtSWu (rd rs1 : Reg) (rm : BitVec 3) (s : State) : Result :=
  finish (withRm rm s.startIter fun r =>
    s.startIter.retireS rd (fpuFromInt .S false r (s.readX rs1)))

/-- R486: the raw low word, with no box check. -/
def execFmvXW (rd rs1 : Reg) (s : State) : Result := writesX s rd (s.readLow rs1)

/-- R487. -/
def execFmvWX (rd rs1 : Reg) (s : State) : Result := finish (.done (s.startIter.writeS rd (s.readX rs1)))

end Sys2Proof.Machine
end

