-- ==== Sys2Proof/Machine/LoadStore.lean ====
section
/-! DEFINITION. Integer loads and stores (42_loadstore.md R380-R391). -/

namespace Sys2Proof.Machine

/-- A load of a width, the value extended into a general register (R381-R383). -/
def loadX (w : Width) (ext : Word → Word) (rd rs1 : Reg) (imm : BitVec 12) (s : State) : Result :=
  finish <|
    match s.startIter.memRead (s.effAddr rs1 imm) w with
    | .error e => .raise e s.startIter
    | .ok (v, t) => .done (t.writeX rd (ext v))

/-- A store of a width (R381-R383). -/
def storeAt (w : Width) (rs1 : Reg) (imm : BitVec 12) (v : Word) (s : State) : Result :=
  finish <|
    match s.startIter.memWrite (s.effAddr rs1 imm) w v with
    | .error e => .raise e s.startIter
    | .ok t => .done t

/-- A loaded byte sign-extended (R384). -/
def sextByte (v : Word) : Word := sext (v.setWidth 8)

/-- A loaded half-word sign-extended (R385). -/
def sextHalf (v : Word) : Word := sext (v.setWidth 16)

/-- R384. -/
def execLb (rd rs1 : Reg) (imm : BitVec 12) (s : State) : Result := loadX .byte sextByte rd rs1 imm s

/-- R385. -/
def execLh (rd rs1 : Reg) (imm : BitVec 12) (s : State) : Result := loadX .half sextHalf rd rs1 imm s

/-- R386. -/
def execLw (rd rs1 : Reg) (imm : BitVec 12) (s : State) : Result := loadX .word id rd rs1 imm s

/-- R387. -/
def execLbu (rd rs1 : Reg) (imm : BitVec 12) (s : State) : Result := loadX .byte (maskWidth .byte) rd rs1 imm s

/-- R388. -/
def execLhu (rd rs1 : Reg) (imm : BitVec 12) (s : State) : Result := loadX .half (maskWidth .half) rd rs1 imm s

/-- R389. -/
def execSb (rs1 rs2 : Reg) (imm : BitVec 12) (s : State) : Result := storeAt .byte rs1 imm (s.readX rs2) s

/-- R390. -/
def execSh (rs1 rs2 : Reg) (imm : BitVec 12) (s : State) : Result := storeAt .half rs1 imm (s.readX rs2) s

/-- R391. -/
def execSw (rs1 rs2 : Reg) (imm : BitVec 12) (s : State) : Result := storeAt .word rs1 imm (s.readX rs2) s

end Sys2Proof.Machine
end

