-- ==== Sys2Proof/Machine/MulDiv.lean ====
section
/-! DEFINITION. Integer multiply and divide (43_muldiv.md R400-R409): exact integer results, cut to a word. -/

namespace Sys2Proof.Machine

/-- An exact product's bits 63:32 (R403-R405). -/
def highWord (product : Int) : Word := (BitVec.ofInt 64 product).extractLsb' 32 32

/-- The signed quotient, rounded toward zero, with the cases of R401. -/
def divSigned (a b : Word) : Word :=
  if b = 0 then 0xFFFFFFFF
  else if a.toInt = -(2 ^ 31) ∧ b.toInt = -1 then 0x80000000
  else BitVec.ofInt 32 (a.toInt.tdiv b.toInt)

/-- The signed remainder, with the cases of R401. -/
def remSigned (a b : Word) : Word :=
  if b = 0 then a
  else if a.toInt = -(2 ^ 31) ∧ b.toInt = -1 then 0
  else BitVec.ofInt 32 (a.toInt - b.toInt * a.toInt.tdiv b.toInt)

/-- The unsigned quotient (R407). -/
def divUnsigned (a b : Word) : Word := if b = 0 then 0xFFFFFFFF else BitVec.ofNat 32 (a.toNat / b.toNat)

/-- The unsigned remainder (R409). -/
def remUnsigned (a b : Word) : Word := if b = 0 then a else BitVec.ofNat 32 (a.toNat % b.toNat)

/-- R402. -/
def execMul (rd rs1 rs2 : Reg) (s : State) : Result :=
  writesX s rd (BitVec.ofInt 32 ((s.readX rs1).toInt * (s.readX rs2).toInt))

/-- R403. -/
def execMulh (rd rs1 rs2 : Reg) (s : State) : Result :=
  writesX s rd (highWord ((s.readX rs1).toInt * (s.readX rs2).toInt))

/-- R404. -/
def execMulhsu (rd rs1 rs2 : Reg) (s : State) : Result :=
  writesX s rd (highWord ((s.readX rs1).toInt * ((s.readX rs2).toNat : Int)))

/-- R405. -/
def execMulhu (rd rs1 rs2 : Reg) (s : State) : Result :=
  writesX s rd (highWord (((s.readX rs1).toNat : Int) * ((s.readX rs2).toNat : Int)))

/-- R406. -/
def execDiv (rd rs1 rs2 : Reg) (s : State) : Result := writesX s rd (divSigned (s.readX rs1) (s.readX rs2))

/-- R407. -/
def execDivu (rd rs1 rs2 : Reg) (s : State) : Result := writesX s rd (divUnsigned (s.readX rs1) (s.readX rs2))

/-- R408. -/
def execRem (rd rs1 rs2 : Reg) (s : State) : Result := writesX s rd (remSigned (s.readX rs1) (s.readX rs2))

/-- R409. -/
def execRemu (rd rs1 rs2 : Reg) (s : State) : Result := writesX s rd (remUnsigned (s.readX rs1) (s.readX rs2))

end Sys2Proof.Machine
end

