-- ==== Sys2Proof/Machine/System.lean ====
section
/-! DEFINITION. Fences, environment call, breakpoint, trap return, wait, and the CSR instructions
(44_system.md R420-R436). -/

namespace Sys2Proof.Machine

/-- A behaviour with no effect: only the Driver's advance (R422, R423, R427). -/
def noOperation (s : State) : Result := finish (.done s.startIter)

/-- R422: every `pred` and `succ` is legal and orders nothing beyond sequential consistency. -/
def execFence (_pred _succ : BitVec 4) (s : State) : Result := noOperation s

/-- R423. -/
def execFenceI (s : State) : Result := noOperation s

/-- R427: no stall. -/
def execWfi (s : State) : Result := noOperation s

/-! ## Environment call (R424) -/

/-- The service of a number (R424). -/
def serviceOf (table : List (Word × Service)) (n : Word) : Option Service :=
  (table.find? (fun e => e.1 == n)).map (·.2)

/-- `sbrk`: `r := Allocate(x[10])`, `x[10] <- r`; a failure exits with 1 (R424, and not the "failure
value" of 93_implementation_defined.md U25: DEDUCED, log 27). -/
def sbrk (s : State) : Behaviour :=
  match s.allocate (s.readX 10) with
  | some (r, t) => .done (t.writeX 10 r)
  | none => .exit 1 s

/-- What a host-supplied handler did, action by action; a checked access that faults raises for the `ecall`. A write
of `pc` is kept apart, since it counts only when the handler returns normally (R424, R622; log 15). -/
def runHandler (end_ : HandlerOutcome) : List HandlerAction → Option Word → State → Behaviour
  | [], target, s =>
    match end_ with
    | .returns =>
      match target with
      | some t => .done (s.jumpTo t)
      | none => .done s
    | .exit code => .exit code s
    | .raise e => .raise e s
  | act :: rest, target, s =>
    match act with
    | .setX r v => runHandler end_ rest target (s.writeX r v)
    | .setF r v => runHandler end_ rest target (s.writeF r v)
    | .setCsr n v =>
      match csrOfNumber n with
      | some c => runHandler end_ rest target (s.csrWrite c v)
      | none => runHandler end_ rest target s
    | .setPc v => runHandler end_ rest (some v) s
    | .memRead a w =>
      match s.memRead a w with
      | .ok (_, t) => runHandler end_ rest target t
      | .error e => .raise e s
    | .memWrite a w v =>
      match s.memWrite a w v with
      | .ok t => runHandler end_ rest target t
      | .error e => .raise e s
    | .allocate r n =>
      match s.allocate n with
      | some (v, t) => runHandler end_ rest target (t.writeX r v)
      | none => .exit 1 s

/-- A host-supplied handler: its whole result is a free value (R682; log 15). -/
def hostedService (s : State) : Behaviour :=
  let reply := Config.hostReply s.draws
  runHandler reply.outcome reply.actions none { s with draws := s.draws + 1 }

/-- A service's behaviour (R424). -/
def runService (sv : Service) (s : State) : Behaviour :=
  match sv with
  | .sbrk => sbrk s
  | .exitZero => .exit 0 s
  | .exitA0 => .exit (s.readX 10) s
  | .hosted => hostedService s

/-- The environment call: the service of `x[17]`, or EnvironmentCallFault for a number that is none (R424). -/
def environmentCall (s : State) : Behaviour :=
  match serviceOf s.cfg.syscalls (s.readX 17) with
  | none => .raise (.environmentCallFault (s.readX 17)) s
  | some sv => runService sv s

/-- R424. -/
def execEcall (s : State) : Result := finish (environmentCall s.startIter)

/-- R425: the Driver stops after the advance and the servicing. -/
def execEbreak (s : State) : Result :=
  finish (.done { s.startIter with iter := { s.startIter.iter with breakpointHit := true } })

/-- R426. -/
def execUret (s : State) : Result := finish (.done s.startIter.returnFromTrap)

/-! ## CSR instructions (R428, R429) -/

/-- The register is read-only (R81). -/
def Csr.isReadOnly (c : Csr) : Bool := c.kind == .readOnly

/-- The order of R428: absent, read, decide, read-only, write, then `rd`. IllegalInstruction carries the fetched
word (R601); nothing has been written when it is raised. -/
def csrAccess (rd : Reg) (n : CsrNum) (writeDue : Bool) (new : Word → Word) (s : State) : Behaviour :=
  match csrOfNumber n with
  | none => .raise (.illegalInstruction s.fetchedWord) s
  | some c =>
    if writeDue && c.isReadOnly then .raise (.illegalInstruction s.fetchedWord) s
    else
      let old := s.csrRead c
      let s1 := if writeDue then s.csrWrite c (new old) else s
      .done (s1.writeX rd old)

/-- R430. -/
def execCsrrw (rd : Reg) (csr : CsrNum) (rs1 : Reg) (s : State) : Result :=
  finish (csrAccess rd csr true (fun _ => s.readX rs1) s.startIter)

/-- R431: the field, not the value, decides whether a write is due. -/
def execCsrrs (rd : Reg) (csr : CsrNum) (rs1 : Reg) (s : State) : Result :=
  finish (csrAccess rd csr (rs1 != 0) (fun old => old ||| s.readX rs1) s.startIter)

/-- R432. -/
def execCsrrc (rd : Reg) (csr : CsrNum) (rs1 : Reg) (s : State) : Result :=
  finish (csrAccess rd csr (rs1 != 0) (fun old => old &&& ~~~s.readX rs1) s.startIter)

/-- R433. -/
def execCsrrwi (rd : Reg) (csr : CsrNum) (uimm : BitVec 5) (s : State) : Result :=
  finish (csrAccess rd csr true (fun _ => uimm.setWidth 32) s.startIter)

/-- R434. -/
def execCsrrsi (rd : Reg) (csr : CsrNum) (uimm : BitVec 5) (s : State) : Result :=
  finish (csrAccess rd csr (uimm != 0) (fun old => old ||| uimm.setWidth 32) s.startIter)

/-- R435. -/
def execCsrrci (rd : Reg) (csr : CsrNum) (uimm : BitVec 5) (s : State) : Result :=
  finish (csrAccess rd csr (uimm != 0) (fun old => old &&& ~~~uimm.setWidth 32) s.startIter)

end Sys2Proof.Machine
end

