-- ==== Sys2Proof/Machine/Driver.lean ====
section
/-! DEFINITION. The Simulation Driver: fetch, one iteration, interrupt servicing, termination; the host's and the
device agents' events at a boundary; the BackStepper's undo; reset (20_memory.md R172, 60_exceptions.md R613-R687,
70_reset_and_hazards.md R700). -/

namespace Sys2Proof.Machine

/-! ## Fetch (R172) -/

/-- What a fetch comes to. -/
inductive Fetched where
  | word (w : Word)
  | raised (e : Exc)
  | cliff
  deriving DecidableEq, Repr

/-- `Fetch(a)`: alignment, segment, then the statement, whose absence is the cliff (R172). -/
def State.fetch (s : State) (a : Word) : Fetched :=
  if !aligned a .word then .raised (.addressFault .fetch .misaligned a)
  else if !executableAt s.cfg.memMap a then .raised (.addressFault .fetch .access a)
  else
    match storeFind s.text a.toNat with
    | some w => .word w
    | none => .cliff

/-! ## The end of an iteration (R620 steps 5-7) -/

/-- Step 5: a retirement counts, unless the iteration raised (R650). -/
def State.countRetired (s : State) : State :=
  if s.iter.raised then s else { s with cycles := s.cycles + 1, instret := s.instret + 1 }.showCounts

/-- The 64-bit time shown by `time` and `timeh`. -/
def State.timeValue (s : State) : BitVec 64 := s.csr.timeh ++ s.csr.time

/-- A draw of the host clock that never runs back (R652). -/
def nextTime (now draw : BitVec 64) : BitVec 64 := if draw.toNat < now.toNat then now else draw

/-- Step 5: `time` and `timeh` from the host clock (R652; log 4). -/
def State.drawTime (s : State) : State :=
  let t := nextTime s.timeValue (Config.timeDraw s.draws)
  { (s.csrBackdoor .time (t.extractLsb' 0 32)).csrBackdoor .timeh (t.extractLsb' 32 32) with draws := s.draws + 1 }

/-- An outside record claimed and its interrupt entered; unchanged where the record is idle. -/
def State.takeIrq (s : State) (k : IrqKind) (code : Word) : State :=
  match s.ctl.claimIrq k with
  | some (p, c) => { s with ctl := c }.interruptEntry code p
  | none => s

/-- The cases 2 to 5 of `Service()`, for an iteration whose synchronous trap, if any, is delivered already (R624). -/
def State.serviceIrq (s : State) : State :=
  if s.iter.raised then s
  else if s.uie && s.csr.uie.getLsbD 8 && s.ctl.external.isSome then s.takeIrq .external 8
  else if s.cfg.usipDelivery && s.uie && s.csr.uie.getLsbD 0 && s.csr.uip.getLsbD 0 then
    (s.csrWrite .uip (s.csrRead .uip &&& ~~~(1 : Word))).interruptEntry 0 0
  else if s.uie && s.csr.uie.getLsbD 4 && s.ctl.timer.isSome then s.takeIrq .timer 4
  else s

/-- `check_requested := 0` (R614, R624). -/
def State.clearCheck (s : State) : State := { s with ctl := { s.ctl with checkRequested := false } }

/-- The controller's records mirrored into `uip` (R627). -/
def State.mirrorUip (s : State) : State :=
  s.csrWrite .uip ((s.csrRead .uip &&& ~~~(0x110 : Word))
    ||| (if s.ctl.external.isSome then 0x100 else 0) ||| (if s.ctl.timer.isSome then 0x010 else 0))

/-- Step 7: the termination checks, in their order; a run an exception has stopped stays stopped by it (R640; log 10). -/
def State.terminate (s : State) : State :=
  match s.driver with
  | .stopped _ => s
  | d =>
    if s.iter.breakpointHit || s.cfg.breakpoints.contains s.pc then s.stop .breakpoint
    else if s.cfg.maxSteps.any (fun n => decide (n ≤ s.steps)) then s.stop .maxSteps
    else if s.stopRequested then { s with stopRequested := false }.stop .userStop
    else
      match d with
      | .stepping n => if n ≤ 1 then s.stop .stepDone else { s with driver := .stepping (n - 1) }
      | _ => s

/-- The run has exited (R641). -/
def State.exited (s : State) : Bool :=
  match s.driver with
  | .stopped (.exit _) => true
  | _ => false

/-- Steps 5 to 7 after the behaviour: an exit ends the iteration at once and only counts as a step (R641). -/
def State.conclude (s : State) : State :=
  if s.exited then { s with steps := s.steps + 1 }
  else
    let s1 := s.countRetired.drawTime.serviceIrq.clearCheck.mirrorUip
    { s1 with steps := s1.steps + 1 }.terminate

/-- An outcome with its next state concluded. -/
def concludeResult : Result → Result
  | .next s => .next s.conclude
  | .fault r => .fault r
  | .refused r => .refused r

/-! ## One iteration (R620) -/

/-- The start of an iteration: the step number advances and the iteration's variables are set (R620, R661). -/
def State.beginStep (s : State) : State := { s with seq := s.seq + 1 }.startIter

/-- The instruction of a fetched word executed, decoded over DESCRIPTORS, or the trap of a word that no descriptor
accepts (R4, R240, R245, R620). -/
def execWord (w : Word) (s : State) : Result :=
  match decodeWith s.cfg.descriptors w with
  | some d => exec (d.build w) s
  | none => takeException (.illegalInstruction w) s

/-- `Iterate()` (R620). -/
def iterate (s : State) : Result :=
  let s0 := s.beginStep
  match s0.fetch s0.pc with
  | .cliff => .next (s0.stop .cliff)
  | .raised e => concludeResult (takeException e s0)
  | .word w => concludeResult (execWord w s0)

/-! ## Registers as the host selects them (R51, R54, R58, R70, R86) -/

/-- The ABI names of the general registers, in number order (R54). -/
def gprNames : List String :=
  ["zero", "ra", "sp", "gp", "tp", "t0", "t1", "t2", "s0", "s1", "a0", "a1", "a2", "a3", "a4", "a5",
   "a6", "a7", "s2", "s3", "s4", "s5", "s6", "s7", "s8", "s9", "s10", "s11", "t3", "t4", "t5", "t6"]

/-- The ABI names of the floating-point registers, in number order (R70). -/
def fprNames : List String :=
  ["ft0", "ft1", "ft2", "ft3", "ft4", "ft5", "ft6", "ft7", "fs0", "fs1", "fa0", "fa1", "fa2", "fa3", "fa4", "fa5",
   "fa6", "fa7", "fs2", "fs3", "fs4", "fs5", "fs6", "fs7", "fs8", "fs9", "fs10", "fs11", "ft8", "ft9", "ft10", "ft11"]

/-- The names `x0` to `x31`. -/
def xNames : List String :=
  ["x0", "x1", "x2", "x3", "x4", "x5", "x6", "x7", "x8", "x9", "x10", "x11", "x12", "x13", "x14", "x15",
   "x16", "x17", "x18", "x19", "x20", "x21", "x22", "x23", "x24", "x25", "x26", "x27", "x28", "x29", "x30", "x31"]

/-- The names `f0` to `f31`. -/
def fNames : List String :=
  ["f0", "f1", "f2", "f3", "f4", "f5", "f6", "f7", "f8", "f9", "f10", "f11", "f12", "f13", "f14", "f15",
   "f16", "f17", "f18", "f19", "f20", "f21", "f22", "f23", "f24", "f25", "f26", "f27", "f28", "f29", "f30", "f31"]

/-- The name of a CSR (R86). -/
def Csr.name : Csr → String
  | .ustatus => "ustatus"
  | .fflags => "fflags"
  | .frm => "frm"
  | .fcsr => "fcsr"
  | .uie => "uie"
  | .utvec => "utvec"
  | .uscratch => "uscratch"
  | .uepc => "uepc"
  | .ucause => "ucause"
  | .utval => "utval"
  | .uip => "uip"
  | .cycle => "cycle"
  | .time => "time"
  | .instret => "instret"
  | .cycleh => "cycleh"
  | .timeh => "timeh"
  | .instreth => "instreth"

/-- The position of a name in a list, as a register number. -/
def numberOf (names : List String) (name : String) : Option Reg :=
  (names.findIdx? (· == name)).map (BitVec.ofNat 5)

/-- A register the banks hold. -/
inductive RegLoc where
  | gpr (r : Reg)
  | pc
  | fpr (r : Reg)
  | csr (c : Csr)
  | acc (name : String)
  deriving DecidableEq, Repr

/-- The register of a name: `x<n>`, `f<n>`, an ABI name, `fp`, `pc`, a CSR's name or an accumulator's (R54, R58, R70, R86).
DESIGN CHOICE (log 21): a name of ACC_REGS that is also another register's selects that other register. -/
def State.locOfName (s : State) (name : String) : Option RegLoc :=
  if name = "pc" then some .pc
  else if name = "fp" then some (.gpr 8)
  else
    match numberOf gprNames name, numberOf xNames name with
    | some r, _ => some (.gpr r)
    | none, some r => some (.gpr r)
    | none, none =>
      match numberOf fprNames name, numberOf fNames name with
      | some r, _ => some (.fpr r)
      | none, some r => some (.fpr r)
      | none, none =>
        match allCsrs.find? (fun c => c.name == name) with
        | some c => some (.csr c)
        | none => (accFind s.acc name).map (fun _ => .acc name)

/-- A number as a register number of `k` bits; none where it is too great, so that the bank holds no such register. -/
def numberIn (k n : Nat) : Option (BitVec k) := if n < 2 ^ k then some (BitVec.ofNat k n) else none

/-- The register the host selects; none is "absent" (R51). -/
def State.locOf (s : State) : RegSel → Option RegLoc
  | .gpr n => (numberIn 5 n).map .gpr
  | .pc => some .pc
  | .fpr n => (numberIn 5 n).map .fpr
  | .csr n => ((numberIn 12 n).bind csrOfNumber).map .csr
  | .named name => s.locOfName name

/-- The bank's get (R51). -/
def State.getLoc (s : State) : RegLoc → DWord
  | .gpr r => (s.readX r).setWidth 64
  | .pc => s.pc.setWidth 64
  | .fpr r => s.readF r
  | .csr c => (s.csrRead c).setWidth 64
  | .acc name => ((accFind s.acc name).getD 0).setWidth 64

/-- The bank's ordinary set (R51, R52, R55, R81). DESIGN CHOICE (log 26): a one-word register takes the low 32 bits of
the value the host gives. -/
def State.setLoc (s : State) (l : RegLoc) (v : DWord) : State :=
  match l with
  | .gpr r => s.writeX r (v.setWidth 32)
  | .pc => s.writePc (v.setWidth 32)
  | .fpr r => s.writeF r v
  | .csr c => s.csrWrite c (v.setWidth 32)
  | .acc name => s.writeAcc name (v.setWidth 32)

/-! ## Undo (R661-R665) -/

/-- A cell of a store put back. -/
def State.restoreCell (s : State) : SavedCell → State
  | .byte a prior => { s with mem := memSet s.mem a prior }
  | .text k (some w) => { s with text := storePut s.text k w }
  | .text k none => { s with text := storeErase s.text k }

/-- One entry's inverse: the prior value written back, notified and not recorded, and the saved PC restored if the
entry has one (R663). `recording` is off while this runs. -/
def State.applyInverse (s : State) (e : BackEntry) : State :=
  let s1 := match e.change with
    | .gpr r prior => s.writeX r prior
    | .acc name prior => s.writeAcc name prior
    | .pc prior => s.writePc prior
    | .fpr r prior => s.writeF r prior
    | .csr c prior => s.csrStore c prior
    | .store a w cells =>
      let t := cells.foldl State.restoreCell s
      t.emit (.memChanged a w (t.rawRead a w))
    | .heap prior => { s with heapTop := prior }
  match e.savedPc with
  | some p => s1.writePc p
  | none => s1

/-- The entries of step `g` at the top of the ring undone, newest first (R661, R663). -/
def State.undoGroup (s : State) (g : Option Nat) : List BackEntry → State
  | [] => { s with ring := [] }
  | e :: rest =>
    if g.isSome && e.step == g then (s.applyInverse e).undoGroup g rest else { s with ring := e :: rest }

/-- The retirement counts an undone step had found, put back and shown (R663). For an entry of a boundary write
(step none) they stay. -/
def State.restoreCounts (s : State) (e : BackEntry) : State :=
  if e.step.isSome then { s with cycles := e.cycles, instret := e.instret }.showCounts else s

/-- `Undo()` (R663): the top entry, then every further entry of its step; the Driver is then stopped(user_stop) (R664). -/
def State.undo (s : State) : State :=
  match s.ring with
  | [] => s.emit .nothingToUndo
  | e :: rest =>
    let s1 := ({ s with recording := false }.applyInverse e).undoGroup e.step rest
    { s1.restoreCounts e with recording := s.cfg.backstepEnabled, driver := .stopped .userStop }

/-! ## Events at a boundary (R613, R621, R680, R683, R700) -/

/-- The Driver is running or stepping. -/
def State.active (s : State) : Bool :=
  match s.driver with
  | .running => true
  | .stepping _ => true
  | _ => false

/-- The Driver may be run or stepped: ready, or stopped with a resumable reason (R621). -/
def State.resumable (s : State) : Bool :=
  match s.driver with
  | .ready => true
  | .stopped .breakpoint => true
  | .stopped .maxSteps => true
  | .stopped .userStop => true
  | .stopped .stepDone => true
  | _ => false

/-- Reset (R700): the block at its reset values under the same parameters. What agents have still to do, what was
put out and the count of draws are no state of the block and stay (log 18). -/
def State.hostReset (s : State) : State :=
  { State.resetWith s.cfg with inbox := s.inbox, outputs := s.outputs, draws := s.draws }

/-- A device may write here: every byte lies in the MMIO segment (R683). -/
def State.deviceMayWrite (s : State) (a : Word) (w : Width) : Bool :=
  (List.range (bytesOf w)).all (fun i => classAt s.cfg.memMap (a + BitVec.ofNat 32 i) == .mmio)

/-- An event that writes state and so needs a paused Driver (R680, R700, U24). -/
def whilePaused (s t : State) : Result := if s.active then .refused .hostWriteWhileRunning else .next t

/-- One event of the host or of a device agent. DEDUCED (log 29): a memory get answers the stored bytes in MMIO too, also
where no device is modelled. -/
def applyEvent (e : HostEvent) (s : State) : Result :=
  match e with
  | .run => if s.resumable then .next { s with driver := .running } else .refused .commandNotAccepted
  | .step n =>
    if s.resumable && 1 ≤ n then .next { s with driver := .stepping n } else .refused .commandNotAccepted
  | .stop => .next { s with stopRequested := true }
  | .reset => whilePaused s s.hostReset
  | .undo => whilePaused s s.undo
  | .getReg r =>
    match s.locOf r with
    | some l => .next (s.emit (.value (s.getLoc l)))
    | none => .next (s.emit .absent)
  | .setReg r v =>
    match s.locOf r with
    | some l => whilePaused s ((s.setLoc l v).emit (.value (s.getLoc l)))
    | none => whilePaused s (s.emit .absent)
  | .getMem a w => .next (s.emit (.value ((s.rawRead a w).setWidth 64)))
  | .setMem a w v => whilePaused s (s.rawWrite a w v)
  | .queryStop => .next (s.emit (.driver s.driver))
  | .register k p =>
    .next ({ s with ctl := (s.ctl.registerIrq k p).1 }.emit (.registered k (s.ctl.registerIrq k p).2))
  | .deviceWrite a w v =>
    if s.deviceMayWrite a w then .next (s.rawWrite a w v) else .refused .deviceWriteOutsideMmio

/-- The events of one boundary, in their order. -/
def applyEvents : List HostEvent → State → Result
  | [], s => .next s
  | e :: es, s =>
    match applyEvent e s with
    | .next t => applyEvents es t
    | .fault r => .fault r
    | .refused r => .refused r

/-- The state at an instruction boundary: writes made now belong to no step (R660). -/
def State.atBoundary (s : State) : State := { s with iter := { s.iter with step := none } }

/-- One step: the first batch of the inbox at the boundary, then an iteration if the Driver runs. With the Driver
idle, a batch that does not start it is the whole step; with no batch either there is no step (log 6, log 8). -/
def driverStep (s : State) : Result :=
  match s.inbox with
  | [] => if s.active then iterate s else .fault .driverIdle
  | b :: rest =>
    match applyEvents b { s.atBoundary with inbox := rest } with
    | .next t => if t.active then iterate t else .next t
    | .fault r => .fault r
    | .refused r => .refused r

/-! ## A program loaded from outside (R700, R680; log 7) -/

/-- A word placed at the program counter's word address, the Driver running and nothing in the inbox. -/
def State.placeWord (s : State) (w : Word) : State :=
  { s with text := storePut s.text (textKey s.pc) w, driver := .running, inbox := [] }

end Sys2Proof.Machine
end

