-- ==== Sys2Proof/Machine/Step.lean ====
section
/-! DEFINITION. One step of the machine, and the placing of an instruction where the next step fetches it. -/

namespace Sys2Proof.Machine

/-- One step (Driver.lean `driverStep`). -/
def step (s : State) : Host.Outcome State Fault Refusal := driverStep s

/-- The state with the instruction of `nbits` bits `w` placed so that the very next step fetches and runs it (log 7). -/
def State.withFetchWord (s : State) (nbits w : Nat) : State := s.placeWord (tableWord nbits w)

end Sys2Proof.Machine
end

