-- ==== Sys2Proof/Safety.lean ====
section
/-! DEFINITION. The terms the claims are stated in: what an instruction may change and what it leaves alone, what
taking a trap or an interrupt does, the invariant every step keeps, and the exact values of floating-point patterns. -/

namespace Sys2Proof.Machine

/-! ## Encodings -/

/-- Every word that holds `pattern` in the bits of `mask` decodes to the instruction `build` reads from it (R239). -/
def Encodes (mask pattern : Word) (build : Word → Instr) : Prop :=
  ∀ w : Word, w &&& mask = pattern → decode w = some (build w)

/-! ## Frames -/

/-- The instruction runs: `exec` answers a next state, and it is as `post` says. -/
def Runs (i : Instr) (s : State) (post : State → Prop) : Prop := ∃ t, exec i s = .next t ∧ post t

/-- Everything but the register banks, `pc`, memory, the BackStepper's ring, the outputs, the iteration's own
variables and the draws is as before. -/
structure SameRest (s t : State) : Prop where
  acc : t.acc = s.acc
  ctl : t.ctl = s.ctl
  driver : t.driver = s.driver
  steps : t.steps = s.steps
  cycles : t.cycles = s.cycles
  instret : t.instret = s.instret
  seq : t.seq = s.seq
  stopRequested : t.stopRequested = s.stopRequested
  heapTop : t.heapTop = s.heapTop
  recording : t.recording = s.recording
  cfg : t.cfg = s.cfg
  inbox : t.inbox = s.inbox

/-- Every byte reads as before, and every statement is as before. -/
structure SameMemory (s t : State) : Prop where
  bytes : ∀ a : Word, t.byteAt a = s.byteAt a
  text : ∀ k : Nat, storeFind t.text k = storeFind s.text k

/-- The instruction went through: it raised nothing and hit no breakpoint. -/
structure Completed (t : State) : Prop where
  raised : t.iter.raised = false
  breakpointHit : t.iter.breakpointHit = false

/-- From `s` to `t` the instruction writes general register `rd` (x0 drops it), ORs `fl` into the accrued flags, draws
`drawn` free values, goes to `next`, and changes nothing else. -/
structure SetsX (s t : State) (rd : Reg) (v : Word) (fl : Fflags) (next : Word) (drawn : Nat) : Prop where
  gpr : ∀ r : Reg, t.readX r = if r = rd ∧ rd ≠ 0 then v else s.readX r
  fpr : ∀ r : Reg, t.readF r = s.readF r
  csr : t.csr = { s.csr with fcsr := s.csr.fcsr ||| fl.setWidth 32 }
  pc : t.pc = next
  memory : SameMemory s t
  rest : SameRest s t
  draws : t.draws = s.draws + drawn
  completed : Completed t

/-- From `s` to `t` the instruction writes floating-point register `rd`, ORs `fl` into the accrued flags, draws
`drawn` free values, goes on to the next word, and changes nothing else. -/
structure SetsF (s t : State) (rd : Reg) (v : DWord) (fl : Fflags) (drawn : Nat) : Prop where
  gpr : ∀ r : Reg, t.readX r = s.readX r
  fpr : ∀ r : Reg, t.readF r = if r = rd then v else s.readF r
  csr : t.csr = { s.csr with fcsr := s.csr.fcsr ||| fl.setWidth 32 }
  pc : t.pc = s.pc + 4
  memory : SameMemory s t
  rest : SameRest s t
  draws : t.draws = s.draws + drawn
  completed : Completed t

/-- From `s` to `t` only `pc` changes, and `hit` says whether the breakpoint flag is up. -/
structure Goes (s t : State) (next : Word) (hit : Bool) : Prop where
  gpr : ∀ r : Reg, t.readX r = s.readX r
  fpr : ∀ r : Reg, t.readF r = s.readF r
  csr : t.csr = s.csr
  pc : t.pc = next
  memory : SameMemory s t
  rest : SameRest s t
  draws : t.draws = s.draws
  raised : t.iter.raised = false
  breakpointHit : t.iter.breakpointHit = hit

/-- `b` is one of the `n` bytes from address `a` on (modulo 2^32). -/
def Within (a : Word) (n : Nat) (b : Word) : Prop := (b - a).toNat < n

/-- From `s` to `t` the instruction stores the `n` bytes `data` from address `a` on, goes on to the next word, and
changes nothing else: every byte outside reads as before. In an executable segment the statements that hold the
stored bytes are present afterwards, and every other statement is as before (R162). -/
structure Stores (s t : State) (a : Word) (n : Nat) (data : Nat → Byte) : Prop where
  inside : ∀ b : Word, Within a n b → t.byteAt b = data (b - a).toNat
  outside : ∀ b : Word, ¬ Within a n b → t.byteAt b = s.byteAt b
  present : ∀ b : Word, Within a n b → executableAt s.cfg.memMap b = true → (storeFind t.text (textKey b)).isSome = true
  otherText : ∀ k : Nat, (∀ b : Word, Within a n b → executableAt s.cfg.memMap b = true → textKey b ≠ k) →
    storeFind t.text k = storeFind s.text k
  gpr : ∀ r : Reg, t.readX r = s.readX r
  fpr : ∀ r : Reg, t.readF r = s.readF r
  csr : t.csr = s.csr
  pc : t.pc = s.pc + 4
  rest : SameRest s t
  draws : t.draws = s.draws
  completed : Completed t

/-! ## Loaded values (R165, R175, R176) -/

/-- The byte a load finds at `ea`; a draw where MMIO is read and no device is modelled. -/
def loadedByte (s : State) (ea : Word) : Byte :=
  if s.readIsDraw ea then (Config.mmioDraw s.draws).setWidth 8 else s.byteAt ea

/-- The half-word a load finds at `ea`, its low byte at `ea`. -/
def loadedHalf (s : State) (ea : Word) : BitVec 16 :=
  if s.readIsDraw ea then (Config.mmioDraw s.draws).setWidth 16 else s.byteAt (ea + 1) ++ s.byteAt ea

/-- The word a load finds at `ea`, its low byte at `ea`. -/
def loadedWord (s : State) (ea : Word) : Word :=
  if s.readIsDraw ea then Config.mmioDraw s.draws
  else s.byteAt (ea + 3) ++ s.byteAt (ea + 2) ++ s.byteAt (ea + 1) ++ s.byteAt ea

/-- How many free values a load at `ea` uses up. -/
def loadDraws (s : State) (ea : Word) : Nat := if s.readIsDraw ea then 1 else 0

/-! ## Control/status registers (R81-R83, R86) -/

/-- What a read of a register shows. -/
def csrShown (t : Csrs) : Csr → Word
  | .fflags => t.fcsr &&& 0x1F
  | .frm => (t.fcsr &&& 0xE0) >>> 5
  | c => t.get c

/-- The bank after an ordinary write of a register. -/
def csrWritten (t : Csrs) (c : Csr) (v : Word) : Csrs :=
  match c with
  | .ustatus => { t with ustatus := (t.ustatus &&& ~~~(0x11 : Word)) ||| (v &&& 0x11) }
  | .fflags => { t with fcsr := (t.fcsr &&& ~~~(0x1F : Word)) ||| (v &&& 0x1F) }
  | .frm => { t with fcsr := (t.fcsr &&& ~~~(0xE0 : Word)) ||| ((v <<< 5) &&& 0xE0) }
  | .fcsr => { t with fcsr := (t.fcsr &&& ~~~(0xFF : Word)) ||| (v &&& 0xFF) }
  | .uie => { t with uie := v }
  | .utvec => { t with utvec := v }
  | .uscratch => { t with uscratch := v }
  | .uepc => { t with uepc := v }
  | .ucause => { t with ucause := v }
  | .utval => { t with utval := v }
  | .uip => { t with uip := v }
  | .cycle | .time | .instret | .cycleh | .timeh | .instreth => t

/-- From `s` to `t` a CSR instruction puts the old value of `c` into `rd`, writes `c` if `write` holds a value, goes on
to the next word, and changes nothing else (R428). -/
structure CsrAccess (s t : State) (rd : Reg) (c : Csr) (write : Option Word) : Prop where
  gpr : ∀ r : Reg, t.readX r = if r = rd ∧ rd ≠ 0 then csrShown s.csr c else s.readX r
  csr : t.csr = match write with
    | some v => csrWritten s.csr c v
    | none => s.csr
  fpr : ∀ r : Reg, t.readF r = s.readF r
  pc : t.pc = s.pc + 4
  memory : SameMemory s t
  rest : SameRest s t
  draws : t.draws = s.draws
  completed : Completed t

/-! ## Exits (R641) -/

/-- From `s` to `t` the run exits with a code, and nothing else changes: `pc` stays at the `ecall`. -/
structure Exits (s t : State) (code : Word) : Prop where
  driver : t.driver = .stopped (.exit code)
  gpr : ∀ r : Reg, t.readX r = s.readX r
  fpr : ∀ r : Reg, t.readF r = s.readF r
  csr : t.csr = s.csr
  pc : t.pc = s.pc
  memory : SameMemory s t
  acc : t.acc = s.acc
  ctl : t.ctl = s.ctl
  counts : t.steps = s.steps ∧ t.cycles = s.cycles ∧ t.instret = s.instret ∧ t.seq = s.seq
  kept : t.heapTop = s.heapTop ∧ t.stopRequested = s.stopRequested ∧ t.recording = s.recording ∧ t.cfg = s.cfg ∧
    t.inbox = s.inbox ∧ t.draws = s.draws

/-! ## Traps and interrupts (R629-R633) -/

/-- A handler is at an address: aligned, in an executable segment, and a statement is there (R629). -/
def HandlerAt (s : State) (a : Word) : Prop :=
  a.toNat % 4 = 0 ∧ executableAt s.cfg.memMap a = true ∧ (storeFind s.text a.toNat).isSome = true

/-- A synchronous trap is handled: there is a handler at BASE, and UIE is 1 (R629). -/
def Handled (s : State) : Prop := HandlerAt s (s.csr.utvec &&& 0xFFFFFFFC) ∧ s.csr.ustatus.getLsbD 0 = true

/-- Where an interrupt of a code goes (R632). -/
def vectorOf (utvec code : Word) : Word :=
  if utvec.extractLsb' 0 2 = 0b01 then (utvec &&& 0xFFFFFFFC) + 4 * code else utvec &&& 0xFFFFFFFC

/-- From `s` to `t` the exception `e` of the instruction at `epc` is taken, and nothing else changes: the trap CSRs are
written; handled, UIE moves into UPIE and `pc` goes to the handler; unhandled, `pc` is past the instruction and the
run stops (R630, R631). -/
structure Trapped (s t : State) (e : Exc) (epc : Word) : Prop where
  handled : Handled s → t.pc = s.csr.utvec &&& 0xFFFFFFFC ∧ t.driver = s.driver ∧
    t.csr = { s.csr with ucause := excCode e, uepc := epc, utval := excTval e,
                         ustatus := (s.csr.ustatus &&& ~~~(0x11 : Word)) ||| 0x10 }
  unhandled : ¬ Handled s → t.pc = epc + 4 ∧ t.driver = .stopped (.exception (excClass e) (excCode e) (excTval e) epc) ∧
    t.csr = { s.csr with ucause := excCode e, uepc := epc, utval := excTval e }
  gpr : ∀ r : Reg, t.readX r = s.readX r
  fpr : ∀ r : Reg, t.readF r = s.readF r
  memory : SameMemory s t
  acc : t.acc = s.acc
  ctl : t.ctl = s.ctl
  counts : t.steps = s.steps ∧ t.cycles = s.cycles ∧ t.instret = s.instret ∧ t.seq = s.seq
  kept : t.heapTop = s.heapTop ∧ t.stopRequested = s.stopRequested ∧ t.recording = s.recording ∧ t.cfg = s.cfg ∧
    t.inbox = s.inbox ∧ t.draws = s.draws
  raised : t.iter.raised = true

/-- From `m` to `t` an interrupt of a code is entered with its payload, and nothing else changes; with no handler at
its target the trap CSRs are written and the run stops (R632, R633). -/
structure Entered (m t : State) (code p : Word) : Prop where
  taken : HandlerAt m (vectorOf m.csr.utvec code) → t.pc = vectorOf m.csr.utvec code ∧ t.driver = m.driver ∧
    t.csr = { m.csr with ucause := 0x80000000 ||| code, uepc := m.pc, utval := p,
                         ustatus := (m.csr.ustatus &&& ~~~(0x11 : Word)) ||| 0x10 }
  noHandler : ¬ HandlerAt m (vectorOf m.csr.utvec code) → t.pc = m.pc ∧
    t.driver = .stopped (.exception .interrupt code p m.pc) ∧
    t.csr = { m.csr with ucause := 0x80000000 ||| code, uepc := m.pc, utval := p }
  gpr : ∀ r : Reg, t.readX r = m.readX r
  fpr : ∀ r : Reg, t.readF r = m.readF r
  memory : SameMemory m t
  acc : t.acc = m.acc
  ctl : t.ctl = m.ctl
  counts : t.steps = m.steps ∧ t.cycles = m.cycles ∧ t.instret = m.instret ∧ t.seq = m.seq
  kept : t.heapTop = m.heapTop ∧ t.stopRequested = m.stopRequested ∧ t.recording = m.recording ∧ t.cfg = m.cfg ∧
    t.inbox = m.inbox ∧ t.draws = m.draws

/-- No record of a synchronous exception is pending: the state between two instructions (R612). -/
def SyncIdle (s : State) : Prop := s.ctl.sync = none

/-- The instruction takes the exception `e`, which leaves its own address as the saved pc (R611, R630). -/
def Traps (i : Instr) (s : State) (e : Exc) : Prop := Runs i s (fun t => Trapped s t e s.pc)

/-- The statement at `pc`, the one the Driver fetches, is the raw word `w` (R172, R247). -/
def StatementAt (s : State) (w : Word) : Prop := storeFind s.text s.pc.toNat = some w

/-- An instruction with a rounding-mode field runs under the mode the field resolves to; where it resolves to none, it
is an illegal instruction, its trap value the fetched word (R460, R601). -/
def RunsRounded (i : Instr) (rm : BitVec 3) (s : State) (post : Rm → State → Prop) : Prop :=
  (∀ r, s.resolveRm rm = some r → Runs i s (post r)) ∧
  (s.resolveRm rm = none → SyncIdle s → ∀ w, StatementAt s w → Traps i s (.illegalInstruction w))

/-- The next step is an iteration, with no event before it. -/
def Running (s : State) : Prop := s.inbox = [] ∧ s.active = true

/-- The iteration ended before its step 5: by an exit, or at the cliff (R620). -/
def EndedEarly (t : State) : Prop := t.exited = true ∨ t.driver = .stopped .cliff

/-! ## The invariant -/

/-- The bits a CSR's prior value may hold, in an entry of the BackStepper. -/
def csrPriorOk : Csr → Word → Prop
  | .ustatus, v => v &&& ~~~(0x11 : Word) = 0
  | .fflags, v | .frm, v | .fcsr, v => v &&& ~~~(0xFF : Word) = 0
  | c, _ => c.isReadOnly = false

/-- A cell a store touched names an address of the space. -/
def cellOk : SavedCell → Prop
  | .byte a _ => a < 2 ^ 32
  | .text k _ => k < 2 ^ 32 ∧ k % 4 = 0

/-- A recorded change can be undone without breaking the invariant. -/
def changeOk : Change → Prop
  | .csr c prior => csrPriorOk c prior
  | .store _ _ cells => ∀ c ∈ cells, cellOk c
  | _ => True

/-- What holds of the machine at every instruction boundary. -/
structure Inv (s : State) : Prop where
  /-- BYTES and TEXT are in their canonical form. -/
  memCanonical : Memory.wf s.mem = true
  textCanonical : Memory.textWf s.text = true
  /-- Only UIE and UPIE of `ustatus` and the low byte of `fcsr` can hold a 1 (R87, R92). -/
  ustatusMask : s.csr.ustatus &&& ~~~(0x11 : Word) = 0
  fcsrMask : s.csr.fcsr &&& ~~~(0xFF : Word) = 0
  /-- The cell behind x0 holds 0 (R55). -/
  x0 : s.x[0] = 0
  /-- No synchronous record is pending (R612). -/
  syncIdle : SyncIdle s
  /-- `cycle` and `instret` are always equal, and their CSRs show them (R650). -/
  countsEqual : s.cycles = s.instret
  cycleShown : s.csr.cycleh ++ s.csr.cycle = s.cycles
  instretShown : s.csr.instreth ++ s.csr.instret = s.instret
  /-- The step numbers: every executed step had one (R642, R661). -/
  stepsBound : s.steps ≤ s.seq
  /-- A bounded run has at least one iteration left (R621). -/
  stepsLeft : ∀ n, s.driver = .stepping n → 1 ≤ n
  /-- The accumulator bank holds exactly ACC_REGS (R58). -/
  accNames : s.acc.map (·.1) = s.cfg.accRegs
  /-- The ring never holds more than its capacity, and its entries can be undone (R662, R663). -/
  ringBound : s.ring.length ≤ s.cfg.backstepCapacity
  ringChanges : ∀ e ∈ s.ring, changeOk e.change
  ringSteps : ∀ e ∈ s.ring, ∀ k, e.step = some k → k ≤ s.seq
  ringCounts : ∀ e ∈ s.ring, e.cycles = e.instret
  iterCounts : s.iter.cycles = s.iter.instret
  iterStep : ∀ k, s.iter.step = some k → k ≤ s.seq

/-! ## Exact values of floating-point patterns (R491) -/

/-- The rational number a finite value is. -/
def exactValue (neg : Bool) (m : Nat) (e : Int) : ℚ := (if neg then -(m : ℚ) else (m : ℚ)) * (2 : ℚ) ^ e

/-- The pattern is finite and stands for the rational number `x`. -/
def HasValue (f : Fmt) (b : BitVec f.width) (x : ℚ) : Prop :=
  ∃ neg m e, unpack f b = .fin neg m e ∧ exactValue neg m e = x

/-! ## Correct rounding (R460, R491) -/

/-- The greatest finite value. -/
def maxFinite (f : Fmt) : ℚ := (2 ^ f.prec - 1) * (2 : ℚ) ^ ((f.bias : Int) + 1 - f.prec)

/-- The value one place above the greatest finite one, with an unbounded exponent. -/
def pastMax (f : Fmt) : ℚ := (2 : ℚ) ^ ((f.bias : Int) + 1)

/-- The least normal value. -/
def minNormal (f : Fmt) : ℚ := (2 : ℚ) ^ (1 - (f.bias : Int))

/-- The distance from the least normal value down to the next value, with an unbounded exponent. -/
def gapBelowNormal (f : Fmt) : ℚ := minNormal f * (2 : ℚ) ^ (-(f.prec : Int))

/-- A mode carries the magnitude of `x` away from zero whenever it is not exact. -/
def roundsAway (r : Rm) (x : ℝ) : Prop := (r = .rdn ∧ x < 0) ∨ (r = .rup ∧ 0 < x)

/-- A mode rounds to nearest. -/
def toNearest (r : Rm) : Prop := r = .rne ∨ r = .rmm

/-- Overflow: `x`, rounded with an unbounded exponent, is greater in magnitude than the greatest finite value. To nearest,
that begins at the halfway point above it. -/
def overflows (f : Fmt) (r : Rm) (x : ℝ) : Prop :=
  (toNearest r ∧ (((maxFinite f + pastMax f) / 2 : ℚ) : ℝ) ≤ |x|) ∨
  (roundsAway r x ∧ ((maxFinite f : ℚ) : ℝ) < |x|) ∨
  (¬ toNearest r ∧ ¬ roundsAway r x ∧ ((pastMax f : ℚ) : ℝ) ≤ |x|)

/-- Tiny after rounding: `x`, rounded with an unbounded exponent, is smaller in magnitude than the least normal value. To
nearest, that ends at the halfway point below it. -/
def tinyRounded (f : Fmt) (r : Rm) (x : ℝ) : Prop :=
  (toNearest r ∧ |x| < ((minNormal f - gapBelowNormal f / 2 : ℚ) : ℝ)) ∨
  (roundsAway r x ∧ |x| ≤ ((minNormal f - gapBelowNormal f : ℚ) : ℝ)) ∨
  (¬ toNearest r ∧ ¬ roundsAway r x ∧ |x| < ((minNormal f : ℚ) : ℝ))

/-- `v`, the value of the pattern `b`, is the value of the format that the mode picks for `x`: the nearest on the mode's side;
to nearest, one that none is nearer than, and of two equally near the one with the even last significand bit under
RNE and the one of larger magnitude under RMM (R460). -/
def Picks (f : Fmt) (r : Rm) (x : ℝ) (b : BitVec f.width) (v : ℚ) : Prop :=
  match r with
  | .rdn => (v : ℝ) ≤ x ∧ ∀ b' v', HasValue f b' v' → (v' : ℝ) ≤ x → v' ≤ v
  | .rup => x ≤ (v : ℝ) ∧ ∀ b' v', HasValue f b' v' → x ≤ (v' : ℝ) → v ≤ v'
  | .rtz => |(v : ℝ)| ≤ |x| ∧ ∀ b' v', HasValue f b' v' → |(v' : ℝ)| ≤ |x| → |v'| ≤ |v|
  | .rne => ∀ b' v', HasValue f b' v' → |(v : ℝ) - x| ≤ |(v' : ℝ) - x| ∧
      (|(v : ℝ) - x| = |(v' : ℝ) - x| → v' ≠ v → b.getLsbD 0 = false)
  | .rmm => ∀ b' v', HasValue f b' v' → |(v : ℝ) - x| ≤ |(v' : ℝ) - x| ∧
      (|(v : ℝ) - x| = |(v' : ℝ) - x| → |v'| ≤ |v|)

/-- `res` is the real number `x`, not zero, rounded to the format once, with the flags of that rounding (R460, R491). -/
structure RoundsTo (f : Fmt) (r : Rm) (x : ℝ) (res : BitVec f.width × Fflags) : Prop where
  sign : signOf f res.1 = true ↔ x < 0
  notNan : (unpack f res.1).isNan = false
  infinite : (∃ n, unpack f res.1 = .inf n) ↔ overflows f r x ∧ (toNearest r ∨ roundsAway r x)
  value : ∀ v, HasValue f res.1 v → Picks f r x res.1 v
  inexactFlag : res.2.getLsbD 0 = false ↔ ∃ v, HasValue f res.1 v ∧ (v : ℝ) = x
  underflowFlag : res.2.getLsbD 1 = true ↔ tinyRounded f r x ∧ res.2.getLsbD 0 = true
  overflowFlag : res.2.getLsbD 2 = true ↔ overflows f r x
  otherFlags : res.2.getLsbD 3 = false ∧ res.2.getLsbD 4 = false

/-- A rational number rounded to an integer (R460, R494). -/
def roundToInt (r : Rm) (x : ℚ) : ℤ :=
  match r with
  | .rdn => ⌊x⌋
  | .rup => ⌈x⌉
  | .rtz => if 0 ≤ x then ⌊x⌋ else ⌈x⌉
  | .rne =>
    if 2 * (x - ⌊x⌋) < 1 then ⌊x⌋
    else if 1 < 2 * (x - ⌊x⌋) then ⌊x⌋ + 1
    else if ⌊x⌋ % 2 = 0 then ⌊x⌋ else ⌊x⌋ + 1
  | .rmm =>
    if 2 * (x - ⌊x⌋) < 1 then ⌊x⌋
    else if 1 < 2 * (x - ⌊x⌋) then ⌊x⌋ + 1
    else if 0 ≤ x then ⌊x⌋ + 1 else ⌊x⌋

end Sys2Proof.Machine
end

