-- ==== Sys2Proof/Certificates/Slice0/Obligations.lean ====
section
/-! DEFINITION. The statements for the provers. Each docstring names the rules of spec/ it formalises. -/

open Sys2Proof Sys2Proof.Machine

/-! ## The decoder (30_encoding.md) -/

/-- R246: encoding a descriptor with operand values that fit and decoding the result gives back exactly that
descriptor and those operands; the word holds the descriptor's match in its fixed bits. -/
def Obligations.DecodeEncodeRoundTrip : Prop :=
  ∀ i : Instr, wellFormed i = true →
    ∃ d ∈ descriptors, decodeWith descriptors (encode i) = some d ∧ d.build (encode i) = i ∧
      encode i &&& d.mask = d.pattern ∧ decode (encode i) = some i

/-- R239, R250-R258: no bit of a word is dropped by decoding it. -/
def Obligations.EncodeDecodeRoundTrip : Prop :=
  ∀ (w : Word) (i : Instr), decode w = some i → encode i = w ∧ wellFormed i = true

/-- The worked words of files 40 to 46, each with the instruction it stands for. -/
def Obligations.SampleWordsDecode : Prop :=
  decode 0x123452B7 = some (.lui 5 0x12345000) ∧
  decode 0x80050293 = some (.addi 5 10 (-2048)) ∧
  decode 0x40B502B3 = some (.sub 5 10 11) ∧
  decode 0x02B522B3 = some (.mulhsu 5 10 11) ∧
  decode 0xFF9FF0EF = some (.jal 1 (-8)) ∧
  decode 0xFE730CE3 = some (.beq 6 7 (-8)) ∧
  decode 0xFFE31283 = some (.lh 5 6 (-2)) ∧
  decode 0xFE63AE23 = some (.sw 7 6 (-4)) ∧
  decode 0x0048E2F3 = some (.csrrsi 5 0x004 17) ∧
  decode 0x0FF0000F = some (.fence 0b1111 0b1111) ∧
  decode 0x1820F043 = some (.fmaddS 0 1 2 3 0b111) ∧
  decode 0xF803BE27 = some (.fsd 7 0 (-100))

/-- R243: what the well-formedness check of an arbitrary table means; the reference table's 109 descriptors meet it, and
no word matches two of them. -/
def Obligations.TableWellFormedness : Prop :=
  (∀ ds : List Descriptor, wellFormedTable ds = true ↔
    (∀ d ∈ ds, d.pattern &&& ~~~d.mask = 0 ∧ d.mask &&& 0x7F = 0x7F) ∧
    ds.Pairwise (fun d e => ¬ (d.mask = e.mask ∧ d.pattern = e.pattern) ∧
      (d.mask ≠ e.mask → popcount d.mask = popcount e.mask →
        ∀ w : Word, ¬ (w &&& d.mask = d.pattern ∧ w &&& e.mask = e.pattern)))) ∧
  wellFormedTable descriptors = true ∧ descriptors.length = 109 ∧
  descriptors.Pairwise (fun d e => ∀ w : Word, ¬ (w &&& d.mask = d.pattern ∧ w &&& e.mask = e.pattern))

/-- R240, R242, R244: over any well-formed table a word yields one of the descriptors that accept it, and none exactly
if there is none; over the reference table that descriptor is the only one. -/
def Obligations.DecodeFindsTheDescriptor : Prop :=
  (∀ ds : List Descriptor, wellFormedTable ds = true → ∀ w : Word,
    (decodeWith ds w = none ↔ ∀ d ∈ ds, w &&& d.mask ≠ d.pattern) ∧
    (∀ d, decodeWith ds w = some d → d ∈ ds ∧ w &&& d.mask = d.pattern ∧
      ∀ e ∈ ds, w &&& e.mask = e.pattern → e = d ∨ popcount e.mask < popcount d.mask)) ∧
  (∀ (w : Word) (d : Descriptor), decodeWith descriptors w = some d ↔ d ∈ descriptors ∧ w &&& d.mask = d.pattern) ∧
  (∀ w : Word, decode w = (decodeWith descriptors w).map (fun d => d.build w))

/-- R241: descriptors are grouped by identical mask, and the tables are tried in order of decreasing fixed bits, then of
increasing mask; the reference set's nine tables and their descriptors, in that order. -/
def Obligations.MatchTableOrder : Prop :=
  (∀ ds : List Descriptor,
    (groupTables ds).Pairwise (fun T U => T.mask ≠ U.mask ∧ triedBefore T.mask U.mask = true) ∧
    (∀ T ∈ groupTables ds, T.rows ≠ [] ∧ ∀ d ∈ T.rows, d.mask = T.mask) ∧
    ∀ d, d ∈ ds ↔ ∃ T ∈ groupTables ds, d ∈ T.rows) ∧
  (∀ m n : Word, triedBefore m n = true ↔
    popcount n < popcount m ∨ (popcount m = popcount n ∧ m.toNat < n.toNat)) ∧
  (groupTables descriptors).map (fun T => (T.mask, popcount T.mask, T.rows.map (·.mnemonic))) =
    [(0xFFFFFFFF, 32, ["fence.i", "ecall", "ebreak", "uret", "wfi"]),
     (0xF00FFFFF, 24, ["fence"]),
     (0xFFF0707F, 22, ["fclass.s", "fmv.x.w", "fmv.w.x", "fclass.d"]),
     (0xFFF0007F, 19, ["fsqrt.s", "fcvt.w.s", "fcvt.wu.s", "fcvt.s.w", "fcvt.s.wu", "fsqrt.d", "fcvt.s.d",
       "fcvt.d.s", "fcvt.w.d", "fcvt.wu.d", "fcvt.d.w", "fcvt.d.wu"]),
     (0xFE00707F, 17, ["slli", "srli", "srai", "add", "sub", "sll", "slt", "sltu", "xor", "srl", "sra", "or", "and",
       "mul", "mulh", "mulhsu", "mulhu", "div", "divu", "rem", "remu", "fsgnj.s", "fsgnjn.s", "fsgnjx.s", "fmin.s",
       "fmax.s", "feq.s", "flt.s", "fle.s", "fsgnj.d", "fsgnjn.d", "fsgnjx.d", "fmin.d", "fmax.d", "feq.d", "flt.d",
       "fle.d"]),
     (0xFE00007F, 14, ["fadd.s", "fsub.s", "fmul.s", "fdiv.s", "fadd.d", "fsub.d", "fmul.d", "fdiv.d"]),
     (0x0000707F, 10, ["addi", "slti", "sltiu", "xori", "ori", "andi", "jalr", "beq", "bne", "blt", "bge", "bltu",
       "bgeu", "lb", "lh", "lw", "lbu", "lhu", "sb", "sh", "sw", "csrrw", "csrrs", "csrrc", "csrrwi", "csrrsi",
       "csrrci", "flw", "fsw", "fld", "fsd"]),
     (0x0600007F, 9, ["fmadd.s", "fmsub.s", "fnmsub.s", "fnmadd.s", "fmadd.d", "fmsub.d", "fnmsub.d", "fnmadd.d"]),
     (0x0000007F, 7, ["lui", "auipc", "jal"])]

/-- R266, R268, and the "every other value" of R260: which words are no instruction. -/
def Obligations.IllegalEncodings : Prop :=
  decode 0x00000000 = none ∧ decode 0xFFFFFFFF = none ∧
  (∀ w : Word, w.extractLsb' 0 7 = 0b1110011 → w ≠ 0x00000073 → w ≠ 0x00100073 → w ≠ 0x00200073 → w ≠ 0x10500073 →
    w.extractLsb' 12 3 = 0b000 ∨ w.extractLsb' 12 3 = 0b100 → decode w = none) ∧
  (∀ w : Word, w.extractLsb' 0 7 = 0b0001111 → w.extractLsb' 12 3 = 0b000 →
    w.extractLsb' 28 4 ≠ 0 ∨ w.extractLsb' 15 5 ≠ 0 ∨ w.extractLsb' 7 5 ≠ 0 → decode w = none) ∧
  (∀ w : Word, w.extractLsb' 0 7 = 0b0001111 → w.extractLsb' 12 3 = 0b001 →
    w.extractLsb' 20 12 ≠ 0 ∨ w.extractLsb' 15 5 ≠ 0 ∨ w.extractLsb' 7 5 ≠ 0 → decode w = none) ∧
  (∀ w : Word, w.extractLsb' 0 7 ∉ ([0b0000011, 0b0000111, 0b0001111, 0b0010011, 0b0010111, 0b0100011, 0b0100111,
    0b0110011, 0b0110111, 0b1000011, 0b1000111, 0b1001011, 0b1001111, 0b1010011, 0b1100011, 0b1100111, 0b1101111,
    0b1110011] : List (BitVec 7)) → decode w = none)

/-- R250-R258: where each operand lies in the word, bit by bit, and the ranges of the extended immediates. -/
def Obligations.OperandFields : Prop :=
  ∀ w : Word,
    (rdOf w).toNat = w.toNat / 2 ^ 7 % 32 ∧ (rs1Of w).toNat = w.toNat / 2 ^ 15 % 32 ∧
    (rs2Of w).toNat = w.toNat / 2 ^ 20 % 32 ∧ (rs3Of w).toNat = w.toNat / 2 ^ 27 % 32 ∧
    (shamtOf w).toNat = w.toNat / 2 ^ 20 % 32 ∧ (csrOf w).toNat = w.toNat / 2 ^ 20 % 4096 ∧
    (rmOf w).toNat = w.toNat / 2 ^ 12 % 8 ∧
    (predOf w).toNat = w.toNat / 2 ^ 24 % 16 ∧ (succOf w).toNat = w.toNat / 2 ^ 20 % 16 ∧
    (sext (immI w)).toInt = (w.extractLsb' 20 12).toInt ∧
    (sext (immS w)).toInt = ((w.toNat / 2 ^ 25 % 64 * 32 + w.toNat / 2 ^ 7 % 32 : Nat) : Int)
      - 2048 * (w.toNat / 2 ^ 31 : Nat) ∧
    (sext (immB w)).toInt = ((w.toNat / 2 ^ 7 % 2 * 2 ^ 11 + w.toNat / 2 ^ 25 % 64 * 2 ^ 5 + w.toNat / 2 ^ 8 % 16 * 2 : Nat) : Int)
      - 4096 * (w.toNat / 2 ^ 31 : Nat) ∧
    (immU w).toNat = w.toNat / 2 ^ 12 * 2 ^ 12 ∧
    (sext (immJ w)).toInt = ((w.toNat / 2 ^ 12 % 256 * 2 ^ 12 + w.toNat / 2 ^ 20 % 2 * 2 ^ 11 + w.toNat / 2 ^ 21 % 1024 * 2 : Nat) : Int)
      - 1048576 * (w.toNat / 2 ^ 31 : Nat)

/-! ## Reset (70_reset_and_hazards.md) and the register banks (10_state.md) -/

/-- R704, R59, R72, R702: the state after reset, under any parameters and at the defaults, and a host's reset brings the
block there from any paused state. Where PROGRAM gives two statements at one word address or two bytes at one address,
that the last stands, that a statement's address is taken down to its word address, and that a byte in an executable
segment or a statement outside one is kept as well, is the model's choice (log 28). -/
def Obligations.ResetState : Prop :=
  (∀ (c : Config) (t : State),
    t = State.resetWith c ∨ (∃ s : State, s.cfg = c ∧ s.active = false ∧ applyEvent .reset s = .next t) →
      t.readX 0 = 0 ∧ t.readX 2 = c.memMap.stackPointer ∧ t.readX 3 = c.memMap.globalPointer ∧
      (∀ r : Reg, r ≠ 2 → r ≠ 3 → t.readX r = 0) ∧
      t.pc = c.entryLabel.getD c.memMap.textBase ∧
      (∀ r : Reg, t.readF r = 0) ∧
      (∀ r : Csr, t.csrRead r = 0) ∧
      t.acc = c.accRegs.map (fun n => (n, 0)) ∧
      (∀ a : Word, memGet t.mem a.toNat = ((c.program.data.reverse.find? (fun p => p.1 == a)).map (·.2)).getD 0) ∧
      (∀ k : Nat, storeFind t.text k =
        (c.program.text.reverse.find? (fun p => (p.1 &&& 0xFFFFFFFC).toNat == k)).map (·.2)) ∧
      t.heapTop = c.memMap.heapBase.toNat ∧
      t.ctl = ⟨none, none, none, false⟩ ∧ t.driver = .ready ∧
      t.steps = 0 ∧ t.seq = 0 ∧ t.cycles = 0 ∧ t.instret = 0 ∧
      t.stopRequested = false ∧ t.iter.breakpointHit = false ∧ t.iter.pcSet = false ∧
      t.ring = [] ∧ t.recording = c.backstepEnabled ∧ t.cfg = c) ∧
  State.reset.readX 2 = 0x7FFFEFFC ∧ State.reset.readX 3 = 0x10008000 ∧ State.reset.pc = 0x00400000 ∧
  State.reset.heapTop = 0x10040000 ∧ State.reset.mem = [] ∧ State.reset.text = []

/-- R55, R71: x0 reads 0 and drops writes, every other general register reads what was last written, and singles are held
NaN-boxed. -/
def Obligations.RegisterReadWrite : Prop :=
  (∀ (s : State) (i j : Reg) (v : Word),
    s.readX 0 = 0 ∧ s.writeX 0 v = s ∧ (s.writeX i v).readX j = if j = i ∧ i ≠ 0 then v else s.readX j) ∧
  (∀ (s : State) (i j : Reg) (v : DWord), (s.writeF i v).readF j = if j = i then v else s.readF j) ∧
  (∀ (s : State) (i : Reg), s.readS i =
    if s.readF i >>> 32 = 0xFFFFFFFF then (s.readF i).setWidth 32 else 0x7FC00000) ∧
  (∀ (s : State) (i : Reg) (v : Word), (s.writeS i v).readF i = 0xFFFFFFFF00000000 ||| v.setWidth 64 ∧
    (s.writeS i v).readS i = v)

/-- R52, R660: an ordinary register set that changes something is recorded, then written, then notified; one that changes
nothing does none of it. Inside an iteration the entry carries the statement's address and the step number. A jump stands
for the advance, which is always recorded (R663, log 11); that a store which changes nothing is not is log 12. -/
def Obligations.SetsAreRecorded : Prop :=
  ∀ s : State,
    let entry (c : Change) : BackEntry :=
      ⟨c, s.iter.step.map (fun _ => s.iter.cur), s.iter.step.bind (fun _ => storeFind s.text s.iter.cur.toNat),
        s.iter.step, s.iter.cycles, s.iter.instret⟩
    let pushed (c : Change) : List BackEntry :=
      if s.recording then (entry c :: s.ring).take s.cfg.backstepCapacity else s.ring
    (∀ (r : Reg) (v : Word), r ≠ 0 → s.readX r ≠ v →
      (s.writeX r v).ring = pushed (.gpr r (s.readX r)) ∧ (s.writeX r v).outputs = .gprChanged r v :: s.outputs) ∧
    (∀ (r : Reg) (v : Word), r = 0 ∨ s.readX r = v → s.writeX r v = s) ∧
    (∀ v : Word, s.pc ≠ v →
      (s.writePc v).ring = pushed (.pc s.pc) ∧ (s.writePc v).outputs = .pcChanged v :: s.outputs) ∧
    s.writePc s.pc = s ∧ (∀ v : Word, (s.jumpTo v).ring = pushed (.pc s.pc)) ∧
    (∀ (r : Reg) (v : DWord), s.readF r ≠ v →
      (s.writeF r v).ring = pushed (.fpr r (s.readF r)) ∧ (s.writeF r v).outputs = .fprChanged r v :: s.outputs) ∧
    (∀ r : Reg, s.writeF r (s.readF r) = s) ∧
    (∀ (c : Csr) (v : Word), s.csr ≠ csrWritten s.csr c v →
      (s.csrWrite c v).ring = pushed (.csr c.backing (s.csr.get c.backing)) ∧
      (s.csrWrite c v).outputs = .csrChanged c.backing ((csrWritten s.csr c v).get c.backing) :: s.outputs) ∧
    (∀ (c : Csr) (v : Word), s.csr = csrWritten s.csr c v → s.csrWrite c v = s) ∧
    (∀ (n : String) (old v : Word), accFind s.acc n = some old → old ≠ v →
      (s.writeAcc n v).ring = pushed (.acc n old) ∧ (s.writeAcc n v).outputs = .accChanged n v :: s.outputs) ∧
    (∀ (n : String) (v : Word), accFind s.acc n = none ∨ accFind s.acc n = some v → s.writeAcc n v = s) ∧
    (∀ (a : Word) (w : Width) (v : Word), s.storeChanges a w v = true →
      (s.rawWrite a w v).ring = pushed (.store a w (s.savedCells a w)) ∧
      (s.rawWrite a w v).outputs = .memChanged a w (maskWidth w v) :: s.outputs) ∧
    (∀ (a : Word) (w : Width) (v : Word), s.storeChanges a w v = false → s.rawWrite a w v = s)

/-- R86, R82, R83: the bank holds exactly these registers, with these numbers, names, kinds and reset values; and what a
read of each shows and an ordinary write leaves, aliases and masks included. -/
def Obligations.CsrBank : Prop :=
  allCsrs.map (fun c => (c.number, c.name, c.kind, State.reset.csrRead c)) =
    [(0x000, "ustatus", .masked 0x00000011, 0), (0x001, "fflags", .view 0x0000001F 0, 0),
     (0x002, "frm", .view 0x000000E0 5, 0), (0x003, "fcsr", .masked 0x000000FF, 0),
     (0x004, "uie", .plain, 0), (0x005, "utvec", .plain, 0), (0x040, "uscratch", .plain, 0),
     (0x041, "uepc", .plain, 0), (0x042, "ucause", .plain, 0), (0x043, "utval", .plain, 0), (0x044, "uip", .plain, 0),
     (0xC00, "cycle", .readOnly, 0), (0xC01, "time", .readOnly, 0), (0xC02, "instret", .readOnly, 0),
     (0xC80, "cycleh", .readOnly, 0), (0xC81, "timeh", .readOnly, 0), (0xC82, "instreth", .readOnly, 0)] ∧
  Csr.fflags.backing = .fcsr ∧ Csr.frm.backing = .fcsr ∧
  (∀ (n : CsrNum) (c : Csr), csrOfNumber n = some c ↔ c.number = n) ∧
  ∀ (s : State) (c : Csr) (v : Word),
    s.csrRead c = csrShown s.csr c ∧ (s.csrWrite c v).csr = csrWritten s.csr c v ∧
    (c.isReadOnly = true → s.csrWrite c v = s) ∧
    (c.isReadOnly = false → ∀ d : Csr, d.backing ≠ c.backing → (s.csrWrite c v).csrRead d = s.csrRead d) ∧
    (s.csrWrite .fflags v).csrRead .fflags = v &&& 0x1F ∧ (s.csrWrite .fflags v).csrRead .frm = s.csrRead .frm ∧
    (s.csrWrite .frm v).csrRead .frm = v &&& 7 ∧ (s.csrWrite .frm v).csrRead .fflags = s.csrRead .fflags

/-- R84, R651: no instruction changes a read-only register, whatever it is and whatever state it runs in. -/
def Obligations.ReadOnlyCsrsKept : Prop :=
  ∀ (i : Instr) (s t : State), exec i s = .next t → ∀ c : Csr, c.isReadOnly = true → t.csr.get c = s.csr.get c

/-! ## Memory (20_memory.md) -/

/-- R156, R157, R161, R162, R170: a raw access is little-endian in BYTES and in TEXT alike, a write changes its own bytes
only, and a statement it touches is present from then on. That a raw access across a segment bound or the top of the
space goes byte by byte modulo 2^32, and the word a raw write brings into being, are the model's deduction (log 22);
that a raw write reaches TEXT with SMC_ENABLED false is its deduction too (log 25). -/
def Obligations.RawAccess : Prop :=
  ∀ (s : State) (a v : Word) (w : Width), Memory.wf s.mem = true →
    (∀ b : Word, (s.rawWrite a w v).byteAt b =
      if (b - a).toNat < bytesOf w then v.extractLsb' (8 * (b - a).toNat) 8 else s.byteAt b) ∧
    (∀ i : Nat, i < 4 → (s.rawRead a w).extractLsb' (8 * i) 8 =
      if i < bytesOf w then s.byteAt (a + BitVec.ofNat 32 i) else 0) ∧
    (s.rawWrite a w v).rawRead a w = maskWidth w v ∧
    (∀ b : Word, Within a (bytesOf w) b → executableAt s.cfg.memMap b = true →
      (storeFind (s.rawWrite a w v).text (textKey b)).isSome = true) ∧
    (∀ k : Nat, (∀ b : Word, Within a (bytesOf w) b → executableAt s.cfg.memMap b = true → textKey b ≠ k) →
      storeFind (s.rawWrite a w v).text k = storeFind s.text k) ∧
    Memory.wf (s.rawWrite a w v).mem = true

/-- R152, R154: the permission of every address of the reference map for each access kind. -/
def Obligations.PermissionTable : Prop :=
  ∀ (c : Config) (a : Word), c.memMap = .reference →
    (a.toNat < 0x00400000 → ∀ k, permits c a k = false) ∧
    ((0x00400000 ≤ a.toNat ∧ a.toNat < 0x10000000) ∨ (0x80000000 ≤ a.toNat ∧ a.toNat < 0x90000000) →
      permits c a .fetch = true ∧ permits c a .read = c.smcEnabled ∧ permits c a .write = c.smcEnabled) ∧
    ((0x10000000 ≤ a.toNat ∧ a.toNat < 0x80000000) ∨ 0x90000000 ≤ a.toNat →
      permits c a .fetch = false ∧ permits c a .read = true ∧ permits c a .write = true)

/-- R165, R166, R167, R168: a checked access looks at alignment, then at permission; a fault carries the kind, the reason
and the address and changes nothing; a permitted read changes nothing but the count of draws, and a permitted write is
the raw write. -/
def Obligations.CheckedAccess : Prop :=
  ∀ (s : State) (a : Word) (w : Width) (v : Word),
    (a.toNat % bytesOf w ≠ 0 → s.memRead a w = .error (.addressFault .read .misaligned a) ∧
      s.memWrite a w v = .error (.addressFault .write .misaligned a)) ∧
    (a.toNat % bytesOf w = 0 → permits s.cfg a .read = false →
      s.memRead a w = .error (.addressFault .read .access a)) ∧
    (a.toNat % bytesOf w = 0 → permits s.cfg a .write = false →
      s.memWrite a w v = .error (.addressFault .write .access a)) ∧
    (a.toNat % bytesOf w = 0 → permits s.cfg a .read = true → s.readIsDraw a = false →
      s.memRead a w = .ok (s.rawRead a w, s)) ∧
    (a.toNat % bytesOf w = 0 → permits s.cfg a .read = true → s.readIsDraw a = true →
      s.memRead a w = .ok (maskWidth w (Config.mmioDraw s.draws), { s with draws := s.draws + 1 })) ∧
    (a.toNat % bytesOf w = 0 → permits s.cfg a .write = true → s.memWrite a w v = .ok (s.rawWrite a w v))

/-- R180, R181: the bump allocator. That the result is the low 32 bits of the exact heap_top is the model's choice (log 16). -/
def Obligations.HeapAllocate : Prop :=
  ∀ (s : State) (n : Word),
    let least := s.heapTop + n.toInt
    (n.toInt < 0 → s.allocate n = none) ∧
    (0 ≤ n.toInt → ∃ top : Nat, top % 4 = 0 ∧ least ≤ top ∧ (top : Int) < least + 4 ∧
      (s.cfg.heapLimit < top → s.allocate n = none) ∧
      (top ≤ s.cfg.heapLimit → ∃ t, s.allocate n = some (BitVec.ofNat 32 s.heapTop, t) ∧ t.heapTop = top ∧
        t.mem = s.mem ∧ t.text = s.text ∧ t.x = s.x ∧ t.f = s.f ∧ t.csr = s.csr ∧ t.pc = s.pc))

/-- R154, R160, R170, R721: no instruction changes a byte of an address whose segment does not permit data writes; while
self-modifying code is off, no instruction changes a statement. -/
def Obligations.ProtectedMemoryKept : Prop :=
  ∀ (i : Instr) (s t : State), Memory.wf s.mem = true → s.cfg.memMap.wf = true → exec i s = .next t →
    (∀ a : Word, permits s.cfg a .write = false → t.byteAt a = s.byteAt a) ∧
    (s.cfg.smcEnabled = false → t.text = s.text)

/-! ## Integer instructions (40_integer.md, 43_muldiv.md) -/

/-- R306-R316. -/
def Obligations.ImmediateResults : Prop :=
  (Encodes 0x0000007F 0x00000037 (fun w => .lui (rdOf w) (immU w)) ∧
   Encodes 0x0000007F 0x00000017 (fun w => .auipc (rdOf w) (immU w)) ∧
   Encodes 0x0000707F 0x00000013 (fun w => .addi (rdOf w) (rs1Of w) (immI w)) ∧
   Encodes 0x0000707F 0x00002013 (fun w => .slti (rdOf w) (rs1Of w) (immI w)) ∧
   Encodes 0x0000707F 0x00003013 (fun w => .sltiu (rdOf w) (rs1Of w) (immI w)) ∧
   Encodes 0x0000707F 0x00004013 (fun w => .xori (rdOf w) (rs1Of w) (immI w)) ∧
   Encodes 0x0000707F 0x00006013 (fun w => .ori (rdOf w) (rs1Of w) (immI w)) ∧
   Encodes 0x0000707F 0x00007013 (fun w => .andi (rdOf w) (rs1Of w) (immI w)) ∧
   Encodes 0xFE00707F 0x00001013 (fun w => .slli (rdOf w) (rs1Of w) (shamtOf w)) ∧
   Encodes 0xFE00707F 0x00005013 (fun w => .srli (rdOf w) (rs1Of w) (shamtOf w)) ∧
   Encodes 0xFE00707F 0x40005013 (fun w => .srai (rdOf w) (rs1Of w) (shamtOf w))) ∧
  ∀ (s : State) (rd rs1 : Reg) (up : Word) (imm : BitVec 12) (sh : BitVec 5),
    let x := s.readX rs1
    let v : Word := imm.signExtend 32
    let next := s.pc + 4
    Runs (.lui rd up) s (fun t => SetsX s t rd up 0 next 0) ∧
    Runs (.auipc rd up) s (fun t => SetsX s t rd (s.pc + up) 0 next 0) ∧
    Runs (.addi rd rs1 imm) s (fun t => SetsX s t rd (x + v) 0 next 0) ∧
    Runs (.slti rd rs1 imm) s (fun t => SetsX s t rd (if x.toInt < imm.toInt then 1 else 0) 0 next 0) ∧
    Runs (.sltiu rd rs1 imm) s (fun t => SetsX s t rd (if x.toNat < v.toNat then 1 else 0) 0 next 0) ∧
    Runs (.xori rd rs1 imm) s (fun t => SetsX s t rd (x ^^^ v) 0 next 0) ∧
    Runs (.ori rd rs1 imm) s (fun t => SetsX s t rd (x ||| v) 0 next 0) ∧
    Runs (.andi rd rs1 imm) s (fun t => SetsX s t rd (x &&& v) 0 next 0) ∧
    Runs (.slli rd rs1 sh) s (fun t => SetsX s t rd (BitVec.ofNat 32 (x.toNat * 2 ^ sh.toNat)) 0 next 0) ∧
    Runs (.srli rd rs1 sh) s (fun t => SetsX s t rd (BitVec.ofNat 32 (x.toNat / 2 ^ sh.toNat)) 0 next 0) ∧
    Runs (.srai rd rs1 sh) s (fun t => SetsX s t rd (BitVec.ofInt 32 (x.toInt / 2 ^ sh.toNat)) 0 next 0)

/-- R317-R326. -/
def Obligations.RegisterResults : Prop :=
  (Encodes 0xFE00707F 0x00000033 (fun w => .add (rdOf w) (rs1Of w) (rs2Of w)) ∧
   Encodes 0xFE00707F 0x40000033 (fun w => .sub (rdOf w) (rs1Of w) (rs2Of w)) ∧
   Encodes 0xFE00707F 0x00001033 (fun w => .sll (rdOf w) (rs1Of w) (rs2Of w)) ∧
   Encodes 0xFE00707F 0x00002033 (fun w => .slt (rdOf w) (rs1Of w) (rs2Of w)) ∧
   Encodes 0xFE00707F 0x00003033 (fun w => .sltu (rdOf w) (rs1Of w) (rs2Of w)) ∧
   Encodes 0xFE00707F 0x00004033 (fun w => .xor (rdOf w) (rs1Of w) (rs2Of w)) ∧
   Encodes 0xFE00707F 0x00005033 (fun w => .srl (rdOf w) (rs1Of w) (rs2Of w)) ∧
   Encodes 0xFE00707F 0x40005033 (fun w => .sra (rdOf w) (rs1Of w) (rs2Of w)) ∧
   Encodes 0xFE00707F 0x00006033 (fun w => .or (rdOf w) (rs1Of w) (rs2Of w)) ∧
   Encodes 0xFE00707F 0x00007033 (fun w => .and (rdOf w) (rs1Of w) (rs2Of w))) ∧
  ∀ (s : State) (rd rs1 rs2 : Reg),
    let x := s.readX rs1
    let y := s.readX rs2
    let sh := y.toNat % 32
    let next := s.pc + 4
    Runs (.add rd rs1 rs2) s (fun t => SetsX s t rd (x + y) 0 next 0) ∧
    Runs (.sub rd rs1 rs2) s (fun t => SetsX s t rd (x - y) 0 next 0) ∧
    Runs (.sll rd rs1 rs2) s (fun t => SetsX s t rd (BitVec.ofNat 32 (x.toNat * 2 ^ sh)) 0 next 0) ∧
    Runs (.slt rd rs1 rs2) s (fun t => SetsX s t rd (if x.toInt < y.toInt then 1 else 0) 0 next 0) ∧
    Runs (.sltu rd rs1 rs2) s (fun t => SetsX s t rd (if x.toNat < y.toNat then 1 else 0) 0 next 0) ∧
    Runs (.xor rd rs1 rs2) s (fun t => SetsX s t rd (x ^^^ y) 0 next 0) ∧
    Runs (.srl rd rs1 rs2) s (fun t => SetsX s t rd (BitVec.ofNat 32 (x.toNat / 2 ^ sh)) 0 next 0) ∧
    Runs (.sra rd rs1 rs2) s (fun t => SetsX s t rd (BitVec.ofInt 32 (x.toInt / 2 ^ sh)) 0 next 0) ∧
    Runs (.or rd rs1 rs2) s (fun t => SetsX s t rd (x ||| y) 0 next 0) ∧
    Runs (.and rd rs1 rs2) s (fun t => SetsX s t rd (x &&& y) 0 next 0)

/-- R401-R409: exact integers, cut to a word; division rounds toward zero, and its two corners have results. -/
def Obligations.MulDivResults : Prop :=
  (Encodes 0xFE00707F 0x02000033 (fun w => .mul (rdOf w) (rs1Of w) (rs2Of w)) ∧
   Encodes 0xFE00707F 0x02001033 (fun w => .mulh (rdOf w) (rs1Of w) (rs2Of w)) ∧
   Encodes 0xFE00707F 0x02002033 (fun w => .mulhsu (rdOf w) (rs1Of w) (rs2Of w)) ∧
   Encodes 0xFE00707F 0x02003033 (fun w => .mulhu (rdOf w) (rs1Of w) (rs2Of w)) ∧
   Encodes 0xFE00707F 0x02004033 (fun w => .div (rdOf w) (rs1Of w) (rs2Of w)) ∧
   Encodes 0xFE00707F 0x02005033 (fun w => .divu (rdOf w) (rs1Of w) (rs2Of w)) ∧
   Encodes 0xFE00707F 0x02006033 (fun w => .rem (rdOf w) (rs1Of w) (rs2Of w)) ∧
   Encodes 0xFE00707F 0x02007033 (fun w => .remu (rdOf w) (rs1Of w) (rs2Of w))) ∧
  ∀ (s : State) (rd rs1 rs2 : Reg),
    let x := s.readX rs1
    let y := s.readX rs2
    let sx := x.toInt
    let sy := y.toInt
    let ux : Int := x.toNat
    let uy : Int := y.toNat
    let next := s.pc + 4
    Runs (.mul rd rs1 rs2) s (fun t => SetsX s t rd (x * y) 0 next 0) ∧
    Runs (.mulh rd rs1 rs2) s (fun t => SetsX s t rd (BitVec.ofInt 32 (sx * sy / 2 ^ 32)) 0 next 0) ∧
    Runs (.mulhsu rd rs1 rs2) s (fun t => SetsX s t rd (BitVec.ofInt 32 (sx * uy / 2 ^ 32)) 0 next 0) ∧
    Runs (.mulhu rd rs1 rs2) s (fun t => SetsX s t rd (BitVec.ofInt 32 (ux * uy / 2 ^ 32)) 0 next 0) ∧
    Runs (.div rd rs1 rs2) s (fun t => SetsX s t rd
      (if sy = 0 then 0xFFFFFFFF else if sx = -2147483648 ∧ sy = -1 then 0x80000000 else BitVec.ofInt 32 (sx.tdiv sy))
      0 next 0) ∧
    Runs (.divu rd rs1 rs2) s (fun t => SetsX s t rd
      (if uy = 0 then 0xFFFFFFFF else BitVec.ofInt 32 (ux / uy)) 0 next 0) ∧
    Runs (.rem rd rs1 rs2) s (fun t => SetsX s t rd
      (if sy = 0 then x else if sx = -2147483648 ∧ sy = -1 then 0 else BitVec.ofInt 32 (sx - sy * sx.tdiv sy))
      0 next 0) ∧
    Runs (.remu rd rs1 rs2) s (fun t => SetsX s t rd (if uy = 0 then x else BitVec.ofInt 32 (ux % uy)) 0 next 0)

/-- R408: quotient and remainder belong together for every pair of operands, division by zero and overflow included, and
a remainder that is not zero has the dividend's sign and is smaller than the divisor. -/
def Obligations.QuotientAndRemainder : Prop :=
  ∀ a b : Word,
    a = b * divSigned a b + remSigned a b ∧ a = b * divUnsigned a b + remUnsigned a b ∧
    (b ≠ 0 → (remUnsigned a b).toNat < b.toNat ∧ (remSigned a b).toInt.natAbs < b.toInt.natAbs) ∧
    ((remSigned a b).toInt ≠ 0 → ((remSigned a b).toInt < 0 ↔ a.toInt < 0))

/-! ## Control transfer (41_control.md) -/

/-- R352, R353: the link is the next word's address, the target is not checked, and bit 0 of a `jalr` target is cleared. -/
def Obligations.JumpResults : Prop :=
  (Encodes 0x0000007F 0x0000006F (fun w => .jal (rdOf w) (immJ w)) ∧
   Encodes 0x0000707F 0x00000067 (fun w => .jalr (rdOf w) (rs1Of w) (immI w))) ∧
  ∀ (s : State) (rd rs1 : Reg) (off : BitVec 21) (imm : BitVec 12),
    Runs (.jal rd off) s (fun t => SetsX s t rd (s.pc + 4) 0 (s.pc + off.signExtend 32) 0 ∧ t.iter.pcSet = true) ∧
    Runs (.jalr rd rs1 imm) s (fun t =>
      SetsX s t rd (s.pc + 4) 0 ((s.readX rs1 + imm.signExtend 32) &&& 0xFFFFFFFE) 0 ∧ t.iter.pcSet = true)

/-- R350, R354-R359: a taken branch goes to its own address plus the offset, an untaken one to the next word. -/
def Obligations.BranchResults : Prop :=
  (Encodes 0x0000707F 0x00000063 (fun w => .beq (rs1Of w) (rs2Of w) (immB w)) ∧
   Encodes 0x0000707F 0x00001063 (fun w => .bne (rs1Of w) (rs2Of w) (immB w)) ∧
   Encodes 0x0000707F 0x00004063 (fun w => .blt (rs1Of w) (rs2Of w) (immB w)) ∧
   Encodes 0x0000707F 0x00005063 (fun w => .bge (rs1Of w) (rs2Of w) (immB w)) ∧
   Encodes 0x0000707F 0x00006063 (fun w => .bltu (rs1Of w) (rs2Of w) (immB w)) ∧
   Encodes 0x0000707F 0x00007063 (fun w => .bgeu (rs1Of w) (rs2Of w) (immB w))) ∧
  ∀ (s : State) (rs1 rs2 : Reg) (off : BitVec 13),
    let x := s.readX rs1
    let y := s.readX rs2
    let branches (taken : Prop) (t : State) : Prop :=
      (taken → Goes s t (s.pc + off.signExtend 32) false ∧ t.iter.pcSet = true) ∧
      (¬ taken → Goes s t (s.pc + 4) false ∧ t.iter.pcSet = false)
    Runs (.beq rs1 rs2 off) s (branches (x = y)) ∧
    Runs (.bne rs1 rs2 off) s (branches (x ≠ y)) ∧
    Runs (.blt rs1 rs2 off) s (branches (x.toInt < y.toInt)) ∧
    Runs (.bge rs1 rs2 off) s (branches (y.toInt ≤ x.toInt)) ∧
    Runs (.bltu rs1 rs2 off) s (branches (x.toNat < y.toNat)) ∧
    Runs (.bgeu rs1 rs2 off) s (branches (y.toNat ≤ x.toNat))

/-- R622: only `jal`, `jalr`, the branches and `uret` set `pc`; an `ecall` can only through a host-supplied handler. -/
def Obligations.WhoSetsPc : Prop :=
  ∀ (i : Instr) (s t : State), exec i s = .next t → t.iter.pcSet = true →
    (∃ rd off, i = .jal rd off) ∨ (∃ rd rs1 imm, i = .jalr rd rs1 imm) ∨ i = .uret ∨
    (∃ rs1 rs2 off, i = .beq rs1 rs2 off ∨ i = .bne rs1 rs2 off ∨ i = .blt rs1 rs2 off ∨ i = .bge rs1 rs2 off ∨
      i = .bltu rs1 rs2 off ∨ i = .bgeu rs1 rs2 off) ∨
    (i = .ecall ∧ serviceOf s.cfg.syscalls (s.readX 17) = some .hosted)

/-! ## Loads and stores (42_loadstore.md, 45_float_single.md, 46_float_double.md) -/

/-- R384-R388: a permitted, aligned load puts the extended bytes into `rd`; a misaligned one and one its segment does not
permit are taken as an AddressFault, alignment first. Where MMIO is read and no device is modelled the value is free (R176,
log 5). -/
def Obligations.LoadResults : Prop :=
  (Encodes 0x0000707F 0x00000003 (fun w => .lb (rdOf w) (rs1Of w) (immI w)) ∧
   Encodes 0x0000707F 0x00001003 (fun w => .lh (rdOf w) (rs1Of w) (immI w)) ∧
   Encodes 0x0000707F 0x00002003 (fun w => .lw (rdOf w) (rs1Of w) (immI w)) ∧
   Encodes 0x0000707F 0x00004003 (fun w => .lbu (rdOf w) (rs1Of w) (immI w)) ∧
   Encodes 0x0000707F 0x00005003 (fun w => .lhu (rdOf w) (rs1Of w) (immI w))) ∧
  ∀ (s : State) (rd rs1 : Reg) (imm : BitVec 12),
    let ea := s.readX rs1 + imm.signExtend 32
    let next := s.pc + 4
    let n := loadDraws s ea
    (permits s.cfg ea .read = true →
      Runs (.lb rd rs1 imm) s (fun t => SetsX s t rd ((loadedByte s ea).signExtend 32) 0 next n) ∧
      Runs (.lbu rd rs1 imm) s (fun t => SetsX s t rd ((loadedByte s ea).setWidth 32) 0 next n) ∧
      (ea.toNat % 2 = 0 →
        Runs (.lh rd rs1 imm) s (fun t => SetsX s t rd ((loadedHalf s ea).signExtend 32) 0 next n) ∧
        Runs (.lhu rd rs1 imm) s (fun t => SetsX s t rd ((loadedHalf s ea).setWidth 32) 0 next n)) ∧
      (ea.toNat % 4 = 0 → Runs (.lw rd rs1 imm) s (fun t => SetsX s t rd (loadedWord s ea) 0 next n))) ∧
    (SyncIdle s →
      (ea.toNat % 2 ≠ 0 → Traps (.lh rd rs1 imm) s (.addressFault .read .misaligned ea) ∧
        Traps (.lhu rd rs1 imm) s (.addressFault .read .misaligned ea)) ∧
      (ea.toNat % 4 ≠ 0 → Traps (.lw rd rs1 imm) s (.addressFault .read .misaligned ea)) ∧
      (permits s.cfg ea .read = false →
        Traps (.lb rd rs1 imm) s (.addressFault .read .access ea) ∧
        Traps (.lbu rd rs1 imm) s (.addressFault .read .access ea) ∧
        (ea.toNat % 2 = 0 → Traps (.lh rd rs1 imm) s (.addressFault .read .access ea) ∧
          Traps (.lhu rd rs1 imm) s (.addressFault .read .access ea)) ∧
        (ea.toNat % 4 = 0 → Traps (.lw rd rs1 imm) s (.addressFault .read .access ea))))

/-- R389-R391: a permitted, aligned store writes its bytes, low byte first, and no other; if it changes anything it
notifies. A misaligned one and one its segment does not permit are taken as an AddressFault, alignment first. -/
def Obligations.StoreResults : Prop :=
  (Encodes 0x0000707F 0x00000023 (fun w => .sb (rs1Of w) (rs2Of w) (immS w)) ∧
   Encodes 0x0000707F 0x00001023 (fun w => .sh (rs1Of w) (rs2Of w) (immS w)) ∧
   Encodes 0x0000707F 0x00002023 (fun w => .sw (rs1Of w) (rs2Of w) (immS w))) ∧
  ∀ (s : State) (rs1 rs2 : Reg) (imm : BitVec 12),
    let ea := s.readX rs1 + imm.signExtend 32
    let v := s.readX rs2
    let bytes : Nat → Byte := fun k => v.extractLsb' (8 * k) 8
    let notified (t : State) (w : Width) : Prop :=
      s.storeChanges ea w v = true → Output.memChanged ea w (maskWidth w v) ∈ t.outputs
    (Memory.wf s.mem = true → permits s.cfg ea .write = true →
      Runs (.sb rs1 rs2 imm) s (fun t => Stores s t ea 1 bytes ∧ notified t .byte) ∧
      (ea.toNat % 2 = 0 → Runs (.sh rs1 rs2 imm) s (fun t => Stores s t ea 2 bytes ∧ notified t .half)) ∧
      (ea.toNat % 4 = 0 → Runs (.sw rs1 rs2 imm) s (fun t => Stores s t ea 4 bytes ∧ notified t .word))) ∧
    (SyncIdle s →
      (ea.toNat % 2 ≠ 0 → Traps (.sh rs1 rs2 imm) s (.addressFault .write .misaligned ea)) ∧
      (ea.toNat % 4 ≠ 0 → Traps (.sw rs1 rs2 imm) s (.addressFault .write .misaligned ea)) ∧
      (permits s.cfg ea .write = false →
        Traps (.sb rs1 rs2 imm) s (.addressFault .write .access ea) ∧
        (ea.toNat % 2 = 0 → Traps (.sh rs1 rs2 imm) s (.addressFault .write .access ea)) ∧
        (ea.toNat % 4 = 0 → Traps (.sw rs1 rs2 imm) s (.addressFault .write .access ea))))

/-- R462, R463: a permitted, aligned single-precision load boxes the word; a store takes the low word as it is; both trap
as `lw` and `sw` do. -/
def Obligations.SingleLoadStore : Prop :=
  (Encodes 0x0000707F 0x00002007 (fun w => .flw (rdOf w) (rs1Of w) (immI w)) ∧
   Encodes 0x0000707F 0x00002027 (fun w => .fsw (rs1Of w) (rs2Of w) (immS w))) ∧
  ∀ (s : State) (rd rs1 rs2 : Reg) (imm : BitVec 12),
    let ea := s.readX rs1 + imm.signExtend 32
    (ea.toNat % 4 = 0 →
      (permits s.cfg ea .read = true → Runs (.flw rd rs1 imm) s (fun t =>
        SetsF s t rd ((0xFFFFFFFF : Word) ++ loadedWord s ea) 0 (loadDraws s ea))) ∧
      (Memory.wf s.mem = true → permits s.cfg ea .write = true → Runs (.fsw rs1 rs2 imm) s (fun t =>
        Stores s t ea 4 (fun k => (s.readF rs2).extractLsb' (8 * k) 8))) ∧
      (SyncIdle s → permits s.cfg ea .read = false → Traps (.flw rd rs1 imm) s (.addressFault .read .access ea)) ∧
      (SyncIdle s → permits s.cfg ea .write = false → Traps (.fsw rs1 rs2 imm) s (.addressFault .write .access ea))) ∧
    (ea.toNat % 4 ≠ 0 → SyncIdle s →
      Traps (.flw rd rs1 imm) s (.addressFault .read .misaligned ea) ∧
      Traps (.fsw rs1 rs2 imm) s (.addressFault .write .misaligned ea))

/-- R521, R522, R523: a double is two words, the low one at `ea`, which needs only alignment to 4; both words are checked
before either is accessed. In the load the free value of a second MMIO word is the next draw (log 5). -/
def Obligations.DoubleLoadStore : Prop :=
  (Encodes 0x0000707F 0x00003007 (fun w => .fld (rdOf w) (rs1Of w) (immI w)) ∧
   Encodes 0x0000707F 0x00003027 (fun w => .fsd (rs1Of w) (rs2Of w) (immS w))) ∧
  ∀ (s : State) (rd rs1 rs2 : Reg) (imm : BitVec 12),
    let ea := s.readX rs1 + imm.signExtend 32
    (ea.toNat % 4 = 0 →
      (permits s.cfg ea .read = true → permits s.cfg (ea + 4) .read = true → Runs (.fld rd rs1 imm) s (fun t =>
        SetsF s t rd (loadedWord { s with draws := s.draws + loadDraws s ea } (ea + 4) ++ loadedWord s ea) 0
          (loadDraws s ea + loadDraws s (ea + 4)))) ∧
      (Memory.wf s.mem = true → permits s.cfg ea .write = true → permits s.cfg (ea + 4) .write = true →
        Runs (.fsd rs1 rs2 imm) s (fun t => Stores s t ea 8 (fun k => (s.readF rs2).extractLsb' (8 * k) 8))) ∧
      (SyncIdle s →
        (permits s.cfg ea .read = false → Traps (.fld rd rs1 imm) s (.addressFault .read .access ea)) ∧
        (permits s.cfg ea .read = true → permits s.cfg (ea + 4) .read = false →
          Traps (.fld rd rs1 imm) s (.addressFault .read .access (ea + 4))) ∧
        (permits s.cfg ea .write = false → Traps (.fsd rs1 rs2 imm) s (.addressFault .write .access ea)) ∧
        (permits s.cfg ea .write = true → permits s.cfg (ea + 4) .write = false →
          Traps (.fsd rs1 rs2 imm) s (.addressFault .write .access (ea + 4))))) ∧
    (ea.toNat % 4 ≠ 0 → SyncIdle s →
      Traps (.fld rd rs1 imm) s (.addressFault .read .misaligned ea) ∧
      Traps (.fsd rs1 rs2 imm) s (.addressFault .write .misaligned ea))

/-! ## System instructions (44_system.md) -/

/-- R422, R423, R425, R426, R427: fences and `wfi` only advance `pc`, `ebreak` raises the breakpoint flag, and `uret`
restores UIE from UPIE, sets UPIE and goes to `uepc`. -/
def Obligations.SystemResults : Prop :=
  (Encodes 0xF00FFFFF 0x0000000F (fun w => .fence (predOf w) (succOf w)) ∧
   Encodes 0xFFFFFFFF 0x0000100F (fun _ => .fenceI) ∧ Encodes 0xFFFFFFFF 0x00100073 (fun _ => .ebreak) ∧
   Encodes 0xFFFFFFFF 0x00200073 (fun _ => .uret) ∧ Encodes 0xFFFFFFFF 0x10500073 (fun _ => .wfi)) ∧
  ∀ (s : State) (pred succ : BitVec 4),
    Runs (.fence pred succ) s (fun t => Goes s t (s.pc + 4) false) ∧
    Runs .fenceI s (fun t => Goes s t (s.pc + 4) false) ∧
    Runs .wfi s (fun t => Goes s t (s.pc + 4) false) ∧
    Runs .ebreak s (fun t => Goes s t (s.pc + 4) true) ∧
    Runs .uret s (fun t => t.csr = { s.csr with ustatus :=
        (s.csr.ustatus &&& ~~~(0x11 : Word)) ||| (if s.csr.ustatus.getLsbD 4 then 0x11 else 0x10) } ∧
      t.iter.pcSet = true ∧ Goes { s with csr := t.csr } t s.csr.uepc false)

/-- R424: the environment call with the reference services, and with a number that is no service. That a failed sbrk exits
with 1, as R424 says, and not with a "failure value" (U25) is the model's deduction (log 27). -/
def Obligations.EnvironmentCalls : Prop :=
  Encodes 0xFFFFFFFF 0x00000073 (fun _ => .ecall) ∧
  (∀ n : Word, serviceOf Config.reference.syscalls n =
    if n = 9 then some .sbrk else if n = 10 then some .exitZero
    else if n = 17 ∨ n = 93 then some .exitA0 else none) ∧
  ∀ s : State,
    let service := serviceOf s.cfg.syscalls (s.readX 17)
    (service = none → SyncIdle s →
      Traps .ecall s (.environmentCallFault (s.readX 17))) ∧
    (service = some .exitZero → Runs .ecall s (fun t => Exits s t 0)) ∧
    (service = some .exitA0 → Runs .ecall s (fun t => Exits s t (s.readX 10))) ∧
    (service = some .sbrk → s.allocate (s.readX 10) = none → Runs .ecall s (fun t => Exits s t 1)) ∧
    (service = some .sbrk → ∀ r u, s.allocate (s.readX 10) = some (r, u) →
      Runs .ecall s (fun t => t.heapTop = u.heapTop ∧ r = BitVec.ofNat 32 s.heapTop ∧
        SetsX { s with heapTop := t.heapTop } t 10 r 0 (s.pc + 4) 0))

/-- R428-R435: a CSR instruction reads the old value into `rd` and writes the register, if a write is due; where it names
an absent register, or would write a read-only one, it is an illegal instruction, its trap value the fetched word. -/
def Obligations.CsrResults : Prop :=
  (Encodes 0x0000707F 0x00001073 (fun w => .csrrw (rdOf w) (csrOf w) (rs1Of w)) ∧
   Encodes 0x0000707F 0x00002073 (fun w => .csrrs (rdOf w) (csrOf w) (rs1Of w)) ∧
   Encodes 0x0000707F 0x00003073 (fun w => .csrrc (rdOf w) (csrOf w) (rs1Of w)) ∧
   Encodes 0x0000707F 0x00005073 (fun w => .csrrwi (rdOf w) (csrOf w) (rs1Of w)) ∧
   Encodes 0x0000707F 0x00006073 (fun w => .csrrsi (rdOf w) (csrOf w) (rs1Of w)) ∧
   Encodes 0x0000707F 0x00007073 (fun w => .csrrci (rdOf w) (csrOf w) (rs1Of w))) ∧
  (∀ (s : State) (rd rs1 : Reg) (uimm : BitVec 5) (c : Csr),
    let n := c.number
    let x := s.readX rs1
    let u : Word := uimm.setWidth 32
    let old := csrShown s.csr c
    (c.isReadOnly = false →
      Runs (.csrrw rd n rs1) s (fun t => CsrAccess s t rd c (some x)) ∧
      Runs (.csrrwi rd n uimm) s (fun t => CsrAccess s t rd c (some u))) ∧
    (rs1 ≠ 0 → c.isReadOnly = false →
      Runs (.csrrs rd n rs1) s (fun t => CsrAccess s t rd c (some (old ||| x))) ∧
      Runs (.csrrc rd n rs1) s (fun t => CsrAccess s t rd c (some (old &&& ~~~x)))) ∧
    (rs1 = 0 →
      Runs (.csrrs rd n rs1) s (fun t => CsrAccess s t rd c none) ∧
      Runs (.csrrc rd n rs1) s (fun t => CsrAccess s t rd c none)) ∧
    (uimm ≠ 0 → c.isReadOnly = false →
      Runs (.csrrsi rd n uimm) s (fun t => CsrAccess s t rd c (some (old ||| u))) ∧
      Runs (.csrrci rd n uimm) s (fun t => CsrAccess s t rd c (some (old &&& ~~~u)))) ∧
    (uimm = 0 →
      Runs (.csrrsi rd n uimm) s (fun t => CsrAccess s t rd c none) ∧
      Runs (.csrrci rd n uimm) s (fun t => CsrAccess s t rd c none))) ∧
  ∀ (s : State) (rd rs1 : Reg) (uimm : BitVec 5) (n : CsrNum) (w : Word), SyncIdle s → StatementAt s w →
    let traps (i : Instr) : Prop := Traps i s (.illegalInstruction w)
    let absent : Prop := ∀ c : Csr, c.number ≠ n
    let readOnly : Prop := ∃ c : Csr, c.number = n ∧ c.isReadOnly = true
    (absent ∨ readOnly → traps (.csrrw rd n rs1) ∧ traps (.csrrwi rd n uimm)) ∧
    (absent ∨ (readOnly ∧ rs1 ≠ 0) → traps (.csrrs rd n rs1) ∧ traps (.csrrc rd n rs1)) ∧
    (absent ∨ (readOnly ∧ uimm ≠ 0) → traps (.csrrsi rd n uimm) ∧ traps (.csrrci rd n uimm))

/-! ## Floating point (45_float_single.md, 46_float_double.md) -/

/-- R460, R461: the rounding mode a field stands for; and an instruction only ever adds to the accrued flags and keeps every
other bit of `fcsr`, but for the CSR instructions and a host-supplied handler (log 15). -/
def Obligations.RoundingAndFlags : Prop :=
  (∀ (s : State) (rm : BitVec 3), s.resolveRm rm =
    let code := if rm = 0b111 then (s.csr.fcsr >>> 5).setWidth 3 else rm
    if code = 0b000 then some .rne else if code = 0b001 then some .rtz else if code = 0b010 then some .rdn
    else if code = 0b011 then some .rup else if code = 0b100 then some .rmm else none) ∧
  ∀ (i : Instr) (s t : State), exec i s = .next t →
    t.csr.fcsr = (s.csr.fcsr ||| (t.csr.fcsr &&& 0x1F)) ∨
    (∃ rd n r, i = .csrrw rd n r ∨ i = .csrrs rd n r ∨ i = .csrrc rd n r ∨
      i = .csrrwi rd n r ∨ i = .csrrsi rd n r ∨ i = .csrrci rd n r) ∨
    (i = .ecall ∧ serviceOf s.cfg.syscalls (s.readX 17) = some .hosted)

/-- R464-R467, R493, R524-R527: one fused operation, the negated forms by sign flips of the operands; an invalid rounding
mode is an illegal instruction; and ∞ × 0 is invalid whatever is added to it. -/
def Obligations.FusedResults : Prop :=
  (Encodes 0x0600007F 0x00000043 (fun w => .fmaddS (rdOf w) (rs1Of w) (rs2Of w) (rs3Of w) (rmOf w)) ∧
   Encodes 0x0600007F 0x00000047 (fun w => .fmsubS (rdOf w) (rs1Of w) (rs2Of w) (rs3Of w) (rmOf w)) ∧
   Encodes 0x0600007F 0x0000004B (fun w => .fnmsubS (rdOf w) (rs1Of w) (rs2Of w) (rs3Of w) (rmOf w)) ∧
   Encodes 0x0600007F 0x0000004F (fun w => .fnmaddS (rdOf w) (rs1Of w) (rs2Of w) (rs3Of w) (rmOf w)) ∧
   Encodes 0x0600007F 0x02000043 (fun w => .fmaddD (rdOf w) (rs1Of w) (rs2Of w) (rs3Of w) (rmOf w)) ∧
   Encodes 0x0600007F 0x02000047 (fun w => .fmsubD (rdOf w) (rs1Of w) (rs2Of w) (rs3Of w) (rmOf w)) ∧
   Encodes 0x0600007F 0x0200004B (fun w => .fnmsubD (rdOf w) (rs1Of w) (rs2Of w) (rs3Of w) (rmOf w)) ∧
   Encodes 0x0600007F 0x0200004F (fun w => .fnmaddD (rdOf w) (rs1Of w) (rs2Of w) (rs3Of w) (rmOf w))) ∧
  (∀ (s : State) (rd r1 r2 r3 : Reg) (rm : BitVec 3),
    let a := s.readS r1
    let b := s.readS r2
    let c := s.readS r3
    let x := s.readF r1
    let y := s.readF r2
    let z := s.readF r3
    let single (res : Word × Fflags) (t : State) : Prop := SetsF s t rd ((0xFFFFFFFF : Word) ++ res.1) res.2 0
    let double (res : DWord × Fflags) (t : State) : Prop := SetsF s t rd res.1 res.2 0
    RunsRounded (.fmaddS rd r1 r2 r3 rm) rm s (fun r => single (fpuFma .S r a b c)) ∧
    RunsRounded (.fmsubS rd r1 r2 r3 rm) rm s (fun r => single (fpuFma .S r a b (c ^^^ 0x80000000))) ∧
    RunsRounded (.fnmsubS rd r1 r2 r3 rm) rm s (fun r => single (fpuFma .S r (a ^^^ 0x80000000) b c)) ∧
    RunsRounded (.fnmaddS rd r1 r2 r3 rm) rm s (fun r =>
      single (fpuFma .S r (a ^^^ 0x80000000) b (c ^^^ 0x80000000))) ∧
    RunsRounded (.fmaddD rd r1 r2 r3 rm) rm s (fun r => double (fpuFma .D r x y z)) ∧
    RunsRounded (.fmsubD rd r1 r2 r3 rm) rm s (fun r => double (fpuFma .D r x y (z ^^^ 0x8000000000000000))) ∧
    RunsRounded (.fnmsubD rd r1 r2 r3 rm) rm s (fun r =>
      double (fpuFma .D r (x ^^^ 0x8000000000000000) y z)) ∧
    RunsRounded (.fnmaddD rd r1 r2 r3 rm) rm s (fun r =>
      double (fpuFma .D r (x ^^^ 0x8000000000000000) y (z ^^^ 0x8000000000000000)))) ∧
  ∀ (f : Fmt) (r : Rm) (a b c : BitVec f.width) (n : Bool), unpack f a = .inf n → HasValue f b 0 →
    fpuFma f r a b c = (canonicalNan f, flagNV) ∧ fpuFma f r b a c = (canonicalNan f, flagNV)

/-- R468-R472, R528-R532: the five operations in both formats, an invalid rounding mode an illegal instruction; and what
they return for the operands the rules name: quiet NaNs (an unboxed single reads as one), ∞ - ∞, x - x, ∞ × 0, 0 / 0,
x / 0, and the roots of zeros and of negative values. Which operations are invalid beside those the rules name, and the
sign of x / 0, are the model's choice after IEEE 754 (log 23). -/
def Obligations.ArithmeticResults : Prop :=
  (Encodes 0xFE00007F 0x00000053 (fun w => .faddS (rdOf w) (rs1Of w) (rs2Of w) (rmOf w)) ∧
   Encodes 0xFE00007F 0x08000053 (fun w => .fsubS (rdOf w) (rs1Of w) (rs2Of w) (rmOf w)) ∧
   Encodes 0xFE00007F 0x10000053 (fun w => .fmulS (rdOf w) (rs1Of w) (rs2Of w) (rmOf w)) ∧
   Encodes 0xFE00007F 0x18000053 (fun w => .fdivS (rdOf w) (rs1Of w) (rs2Of w) (rmOf w)) ∧
   Encodes 0xFFF0007F 0x58000053 (fun w => .fsqrtS (rdOf w) (rs1Of w) (rmOf w)) ∧
   Encodes 0xFE00007F 0x02000053 (fun w => .faddD (rdOf w) (rs1Of w) (rs2Of w) (rmOf w)) ∧
   Encodes 0xFE00007F 0x0A000053 (fun w => .fsubD (rdOf w) (rs1Of w) (rs2Of w) (rmOf w)) ∧
   Encodes 0xFE00007F 0x12000053 (fun w => .fmulD (rdOf w) (rs1Of w) (rs2Of w) (rmOf w)) ∧
   Encodes 0xFE00007F 0x1A000053 (fun w => .fdivD (rdOf w) (rs1Of w) (rs2Of w) (rmOf w)) ∧
   Encodes 0xFFF0007F 0x5A000053 (fun w => .fsqrtD (rdOf w) (rs1Of w) (rmOf w))) ∧
  (∀ (s : State) (rd r1 r2 : Reg) (rm : BitVec 3),
    let a := s.readS r1
    let b := s.readS r2
    let x := s.readF r1
    let y := s.readF r2
    let single (res : Word × Fflags) (t : State) : Prop := SetsF s t rd ((0xFFFFFFFF : Word) ++ res.1) res.2 0
    let double (res : DWord × Fflags) (t : State) : Prop := SetsF s t rd res.1 res.2 0
    RunsRounded (.faddS rd r1 r2 rm) rm s (fun r => single (fpuAdd .S r a b)) ∧
    RunsRounded (.fsubS rd r1 r2 rm) rm s (fun r => single (fpuSub .S r a b)) ∧
    RunsRounded (.fmulS rd r1 r2 rm) rm s (fun r => single (fpuMul .S r a b)) ∧
    RunsRounded (.fdivS rd r1 r2 rm) rm s (fun r => single (fpuDiv .S r a b)) ∧
    RunsRounded (.fsqrtS rd r1 rm) rm s (fun r => single (fpuSqrt .S r a)) ∧
    RunsRounded (.faddD rd r1 r2 rm) rm s (fun r => double (fpuAdd .D r x y)) ∧
    RunsRounded (.fsubD rd r1 r2 rm) rm s (fun r => double (fpuSub .D r x y)) ∧
    RunsRounded (.fmulD rd r1 r2 rm) rm s (fun r => double (fpuMul .D r x y)) ∧
    RunsRounded (.fdivD rd r1 r2 rm) rm s (fun r => double (fpuDiv .D r x y)) ∧
    RunsRounded (.fsqrtD rd r1 rm) rm s (fun r => double (fpuSqrt .D r x))) ∧
  ∀ (f : Fmt) (r : Rm) (a b : BitVec f.width),
    ((unpack f a).isNan = true ∨ (unpack f b).isNan = true → (unpack f a).isSnan = false → (unpack f b).isSnan = false →
      fpuAdd f r a b = (canonicalNan f, 0) ∧ fpuSub f r a b = (canonicalNan f, 0) ∧
      fpuMul f r a b = (canonicalNan f, 0) ∧ fpuDiv f r a b = (canonicalNan f, 0)) ∧
    (unpack f a = .nan false → fpuSqrt f r a = (canonicalNan f, 0)) ∧
    (∀ n, unpack f a = .inf n → unpack f b = .inf (!n) → fpuAdd f r a b = (canonicalNan f, flagNV)) ∧
    (∀ n, unpack f a = .inf n → unpack f b = .inf n → fpuSub f r a b = (canonicalNan f, flagNV)) ∧
    (∀ x, HasValue f a x → fpuSub f r a a = (zeroOf f (decide (r = .rdn)), 0)) ∧
    (∀ n, unpack f a = .inf n → HasValue f b 0 →
      fpuMul f r a b = (canonicalNan f, flagNV) ∧ fpuMul f r b a = (canonicalNan f, flagNV)) ∧
    (HasValue f a 0 → HasValue f b 0 → fpuDiv f r a b = (canonicalNan f, flagNV)) ∧
    (∀ x, x ≠ 0 → HasValue f a x → HasValue f b 0 →
      fpuDiv f r a b = (infOf f (signOf f a != signOf f b), flagDZ)) ∧
    (HasValue f a 0 → fpuSqrt f r a = (a, 0)) ∧
    (unpack f a = .inf true ∨ (∃ x, x < 0 ∧ HasValue f a x) → fpuSqrt f r a = (canonicalNan f, flagNV))

/-- R473-R475, R533-R535: the sign of one operand on the magnitude of another, bit for bit, with no flag. -/
def Obligations.SignInjectionResults : Prop :=
  (Encodes 0xFE00707F 0x20000053 (fun w => .fsgnjS (rdOf w) (rs1Of w) (rs2Of w)) ∧
   Encodes 0xFE00707F 0x20001053 (fun w => .fsgnjnS (rdOf w) (rs1Of w) (rs2Of w)) ∧
   Encodes 0xFE00707F 0x20002053 (fun w => .fsgnjxS (rdOf w) (rs1Of w) (rs2Of w)) ∧
   Encodes 0xFE00707F 0x22000053 (fun w => .fsgnjD (rdOf w) (rs1Of w) (rs2Of w)) ∧
   Encodes 0xFE00707F 0x22001053 (fun w => .fsgnjnD (rdOf w) (rs1Of w) (rs2Of w)) ∧
   Encodes 0xFE00707F 0x22002053 (fun w => .fsgnjxD (rdOf w) (rs1Of w) (rs2Of w))) ∧
  ∀ (s : State) (rd r1 r2 : Reg),
    let a := s.readS r1
    let b := s.readS r2
    let x := s.readF r1
    let y := s.readF r2
    let signed32 (sign : BitVec 1) : DWord := (0xFFFFFFFF : Word) ++ (sign ++ a.extractLsb' 0 31 : BitVec (1 + 31))
    let signed64 (sign : BitVec 1) : DWord := (sign ++ x.extractLsb' 0 63 : BitVec (1 + 63))
    let sa := a.extractLsb' 31 1
    let sb := b.extractLsb' 31 1
    let sx := x.extractLsb' 63 1
    let sy := y.extractLsb' 63 1
    Runs (.fsgnjS rd r1 r2) s (fun t => SetsF s t rd (signed32 sb) 0 0) ∧
    Runs (.fsgnjnS rd r1 r2) s (fun t => SetsF s t rd (signed32 (~~~sb)) 0 0) ∧
    Runs (.fsgnjxS rd r1 r2) s (fun t => SetsF s t rd (signed32 (sa ^^^ sb)) 0 0) ∧
    Runs (.fsgnjD rd r1 r2) s (fun t => SetsF s t rd (signed64 sy) 0 0) ∧
    Runs (.fsgnjnD rd r1 r2) s (fun t => SetsF s t rd (signed64 (~~~sy)) 0 0) ∧
    Runs (.fsgnjxD rd r1 r2) s (fun t => SetsF s t rd (signed64 (sx ^^^ sy)) 0 0)

/-- R476-R480, R536, R537, R540-R542. -/
def Obligations.CompareResults : Prop :=
  (Encodes 0xFE00707F 0x28000053 (fun w => .fminS (rdOf w) (rs1Of w) (rs2Of w)) ∧
   Encodes 0xFE00707F 0x28001053 (fun w => .fmaxS (rdOf w) (rs1Of w) (rs2Of w)) ∧
   Encodes 0xFE00707F 0xA0002053 (fun w => .feqS (rdOf w) (rs1Of w) (rs2Of w)) ∧
   Encodes 0xFE00707F 0xA0001053 (fun w => .fltS (rdOf w) (rs1Of w) (rs2Of w)) ∧
   Encodes 0xFE00707F 0xA0000053 (fun w => .fleS (rdOf w) (rs1Of w) (rs2Of w)) ∧
   Encodes 0xFE00707F 0x2A000053 (fun w => .fminD (rdOf w) (rs1Of w) (rs2Of w)) ∧
   Encodes 0xFE00707F 0x2A001053 (fun w => .fmaxD (rdOf w) (rs1Of w) (rs2Of w)) ∧
   Encodes 0xFE00707F 0xA2002053 (fun w => .feqD (rdOf w) (rs1Of w) (rs2Of w)) ∧
   Encodes 0xFE00707F 0xA2001053 (fun w => .fltD (rdOf w) (rs1Of w) (rs2Of w)) ∧
   Encodes 0xFE00707F 0xA2000053 (fun w => .fleD (rdOf w) (rs1Of w) (rs2Of w))) ∧
  ∀ (s : State) (rd r1 r2 : Reg),
    let a := s.readS r1
    let b := s.readS r2
    let x := s.readF r1
    let y := s.readF r2
    let single (res : Word × Fflags) (t : State) : Prop := SetsF s t rd ((0xFFFFFFFF : Word) ++ res.1) res.2 0
    let double (res : DWord × Fflags) (t : State) : Prop := SetsF s t rd res.1 res.2 0
    let bit (res : Bool × Fflags) (t : State) : Prop :=
      SetsX s t rd (if res.1 then 1 else 0) res.2 (s.pc + 4) 0
    Runs (.fminS rd r1 r2) s (single (fpuMin .S a b)) ∧
    Runs (.fmaxS rd r1 r2) s (single (fpuMax .S a b)) ∧
    Runs (.feqS rd r1 r2) s (bit (fpuEq .S a b)) ∧
    Runs (.fltS rd r1 r2) s (bit (fpuLt .S a b)) ∧
    Runs (.fleS rd r1 r2) s (bit (fpuLe .S a b)) ∧
    Runs (.fminD rd r1 r2) s (double (fpuMin .D x y)) ∧
    Runs (.fmaxD rd r1 r2) s (double (fpuMax .D x y)) ∧
    Runs (.feqD rd r1 r2) s (bit (fpuEq .D x y)) ∧
    Runs (.fltD rd r1 r2) s (bit (fpuLt .D x y)) ∧
    Runs (.fleD rd r1 r2) s (bit (fpuLe .D x y))

/-- R481, R486, R487, R543: classification writes the class mask, and the moves copy bits with no box check. -/
def Obligations.MoveResults : Prop :=
  (Encodes 0xFFF0707F 0xE0001053 (fun w => .fclassS (rdOf w) (rs1Of w)) ∧
   Encodes 0xFFF0707F 0xE2001053 (fun w => .fclassD (rdOf w) (rs1Of w)) ∧
   Encodes 0xFFF0707F 0xE0000053 (fun w => .fmvXW (rdOf w) (rs1Of w)) ∧
   Encodes 0xFFF0707F 0xF0000053 (fun w => .fmvWX (rdOf w) (rs1Of w))) ∧
  ∀ (s : State) (rd r1 : Reg),
    Runs (.fclassS rd r1) s (fun t => SetsX s t rd (classMask .S (s.readS r1)) 0 (s.pc + 4) 0) ∧
    Runs (.fclassD rd r1) s (fun t => SetsX s t rd (classMask .D (s.readF r1)) 0 (s.pc + 4) 0) ∧
    Runs (.fmvXW rd r1) s (fun t => SetsX s t rd ((s.readF r1).setWidth 32) 0 (s.pc + 4) 0) ∧
    Runs (.fmvWX rd r1) s (fun t => SetsF s t rd ((0xFFFFFFFF : Word) ++ s.readX r1) 0 0)

/-- R482-R485, R538, R539, R544-R547: the ten conversions, an invalid rounding mode an illegal instruction even where the
conversion is exact. -/
def Obligations.ConversionResults : Prop :=
  (Encodes 0xFFF0007F 0xC0000053 (fun w => .fcvtWS (rdOf w) (rs1Of w) (rmOf w)) ∧
   Encodes 0xFFF0007F 0xC0100053 (fun w => .fcvtWuS (rdOf w) (rs1Of w) (rmOf w)) ∧
   Encodes 0xFFF0007F 0xD0000053 (fun w => .fcvtSW (rdOf w) (rs1Of w) (rmOf w)) ∧
   Encodes 0xFFF0007F 0xD0100053 (fun w => .fcvtSWu (rdOf w) (rs1Of w) (rmOf w)) ∧
   Encodes 0xFFF0007F 0x40100053 (fun w => .fcvtSD (rdOf w) (rs1Of w) (rmOf w)) ∧
   Encodes 0xFFF0007F 0x42000053 (fun w => .fcvtDS (rdOf w) (rs1Of w) (rmOf w)) ∧
   Encodes 0xFFF0007F 0xC2000053 (fun w => .fcvtWD (rdOf w) (rs1Of w) (rmOf w)) ∧
   Encodes 0xFFF0007F 0xC2100053 (fun w => .fcvtWuD (rdOf w) (rs1Of w) (rmOf w)) ∧
   Encodes 0xFFF0007F 0xD2000053 (fun w => .fcvtDW (rdOf w) (rs1Of w) (rmOf w)) ∧
   Encodes 0xFFF0007F 0xD2100053 (fun w => .fcvtDWu (rdOf w) (rs1Of w) (rmOf w))) ∧
  (∀ (s : State) (rd r1 : Reg) (rm : BitVec 3),
    let a := s.readS r1
    let x := s.readF r1
    let w := s.readX r1
    let single (res : Word × Fflags) (t : State) : Prop := SetsF s t rd ((0xFFFFFFFF : Word) ++ res.1) res.2 0
    let double (res : DWord × Fflags) (t : State) : Prop := SetsF s t rd res.1 res.2 0
    let int (res : Word × Fflags) (t : State) : Prop := SetsX s t rd res.1 res.2 (s.pc + 4) 0
    RunsRounded (.fcvtWS rd r1 rm) rm s (fun r => int (fpuToInt .S true r a)) ∧
    RunsRounded (.fcvtWuS rd r1 rm) rm s (fun r => int (fpuToInt .S false r a)) ∧
    RunsRounded (.fcvtSW rd r1 rm) rm s (fun r => single (fpuFromInt .S true r w)) ∧
    RunsRounded (.fcvtSWu rd r1 rm) rm s (fun r => single (fpuFromInt .S false r w)) ∧
    RunsRounded (.fcvtSD rd r1 rm) rm s (fun r => single (fpuDToS r x)) ∧
    RunsRounded (.fcvtDS rd r1 rm) rm s (fun _ => double (fpuSToD a)) ∧
    RunsRounded (.fcvtWD rd r1 rm) rm s (fun r => int (fpuToInt .D true r x)) ∧
    RunsRounded (.fcvtWuD rd r1 rm) rm s (fun r => int (fpuToInt .D false r x)) ∧
    RunsRounded (.fcvtDW rd r1 rm) rm s (fun r => double (fpuFromInt .D true r w)) ∧
    RunsRounded (.fcvtDWu rd r1 rm) rm s (fun r => double (fpuFromInt .D false r w))) ∧
  (∀ (r : Rm) (w : Word), (fpuFromInt .D true r w).2 = 0 ∧ (fpuFromInt .D false r w).2 = 0) ∧
  fpuSToD 0x7FC00000 = (0x7FF8000000000000, 0) ∧
  (∀ (r : Rm) (x : DWord), (unpack .D x).isNan = true → (fpuDToS r x).1 = 0x7FC00000)

/-- R492, R494, R495: a result that is a NaN is the canonical one, and a signalling operand always sets NV; a quiet one in a
fused operation sets none, unless ∞ × 0 does. -/
def Obligations.NanRules : Prop :=
  ∀ (f : Fmt) (r : Rm) (a b c : BitVec f.width),
    let snan (x : BitVec f.width) : Prop := unpack f x = .nan true
    let canonical (res : BitVec f.width × Fflags) : Prop := (unpack f res.1).isNan = true → res.1 = canonicalNan f
    let nv (fl : Fflags) : Prop := fl.getLsbD 4 = true
    (canonical (fpuAdd f r a b) ∧ canonical (fpuSub f r a b) ∧ canonical (fpuMul f r a b) ∧ canonical (fpuDiv f r a b) ∧
      canonical (fpuSqrt f r a) ∧ canonical (fpuFma f r a b c) ∧ canonical (fpuMin f a b) ∧ canonical (fpuMax f a b)) ∧
    (snan a ∨ snan b → nv (fpuAdd f r a b).2 ∧ nv (fpuSub f r a b).2 ∧ nv (fpuMul f r a b).2 ∧ nv (fpuDiv f r a b).2 ∧
      nv (fpuFma f r a b c).2 ∧ nv (fpuMin f a b).2 ∧ nv (fpuMax f a b).2 ∧
      nv (fpuEq f a b).2 ∧ nv (fpuLt f a b).2 ∧ nv (fpuLe f a b).2) ∧
    (snan a → nv (fpuSqrt f r a).2 ∧ nv (fpuToInt f true r a).2 ∧ nv (fpuToInt f false r a).2) ∧
    (snan c → nv (fpuFma f r a b c).2) ∧
    ((unpack f a).isNan = true ∨ (unpack f b).isNan = true → ¬ snan a → ¬ snan b → ¬ snan c →
      fpuFma f r a b c = (canonicalNan f, 0)) ∧
    ((∃ x, HasValue f a x) → (∃ y, HasValue f b y) → unpack f c = .nan false → fpuFma f r a b c = (canonicalNan f, 0)) ∧
    canonicalNan .S = 0x7FC00000 ∧ canonicalNan .D = 0x7FF8000000000000 ∧
    (∀ x : Word, ((unpack .D (fpuSToD x).1).isNan = true ↔ (unpack .S x).isNan = true) ∧
      ((unpack .S x).isNan = true → (fpuSToD x).1 = 0x7FF8000000000000) ∧
      (unpack .S x = .nan true → nv (fpuSToD x).2)) ∧
    (∀ x : DWord, ((unpack .S (fpuDToS r x).1).isNan = true ↔ (unpack .D x).isNan = true) ∧
      ((unpack .D x).isNan = true → (fpuDToS r x).1 = 0x7FC00000) ∧
      (unpack .D x = .nan true → nv (fpuDToS r x).2))

/-- R496, R497: comparisons by value, with the two zeros equal; a NaN operand compares false, signalling always in `lt` and
`le` and only if it is a signalling NaN in `eq`; minimum and maximum of numbers, of the two zeros and of NaNs. -/
def Obligations.CompareAndMinMax : Prop :=
  ∀ (f : Fmt) (a b : BitVec f.width),
    ((unpack f a).isNan = true ∨ (unpack f b).isNan = true →
      fpuLt f a b = (false, flagNV) ∧ fpuLe f a b = (false, flagNV) ∧
      fpuEq f a b = (false, if (unpack f a).isSnan ∨ (unpack f b).isSnan then flagNV else 0)) ∧
    (∀ x y : ℚ, HasValue f a x → HasValue f b y →
      fpuEq f a b = (decide (x = y), 0) ∧ fpuLt f a b = (decide (x < y), 0) ∧ fpuLe f a b = (decide (x ≤ y), 0)) ∧
    (∀ (n : Bool) (y : ℚ), unpack f a = .inf n → HasValue f b y →
      fpuEq f a b = (false, 0) ∧ fpuLt f a b = (n, 0) ∧ fpuLe f a b = (n, 0) ∧
      fpuEq f b a = (false, 0) ∧ fpuLt f b a = (!n, 0) ∧ fpuLe f b a = (!n, 0)) ∧
    (∀ n m : Bool, unpack f a = .inf n → unpack f b = .inf m →
      fpuEq f a b = (n == m, 0) ∧ fpuLt f a b = (n && !m, 0) ∧ fpuLe f a b = (n || !m, 0)) ∧
    ((unpack f a).isNan = true → (unpack f b).isNan = true →
      (fpuMin f a b).1 = canonicalNan f ∧ (fpuMax f a b).1 = canonicalNan f) ∧
    ((unpack f a).isNan = true → (unpack f b).isNan = false → (fpuMin f a b).1 = b ∧ (fpuMax f a b).1 = b) ∧
    ((unpack f a).isNan = false → (unpack f b).isNan = true → (fpuMin f a b).1 = a ∧ (fpuMax f a b).1 = a) ∧
    ((unpack f a).isNan = false → (unpack f b).isNan = false →
      ((fpuLt f a b).1 = true → (fpuMin f a b).1 = a ∧ (fpuMax f a b).1 = b) ∧
      ((fpuLt f b a).1 = true → (fpuMin f a b).1 = b ∧ (fpuMax f a b).1 = a)) ∧
    ((unpack f a).isNan = false → (fpuMin f a a).1 = a ∧ (fpuMax f a a).1 = a) ∧
    (a = zeroOf f true → b = zeroOf f false → (fpuMin f a b).1 = a ∧ (fpuMax f a b).1 = b ∧
      (fpuMin f b a).1 = a ∧ (fpuMax f b a).1 = b) ∧
    ((fpuMin f a b).2 = if (unpack f a).isSnan ∨ (unpack f b).isSnan then flagNV else 0) ∧
    ((fpuMax f a b).2 = if (unpack f a).isSnan ∨ (unpack f b).isSnan then flagNV else 0)

/-- R494: rounding to an integer and saturation. -/
def Obligations.ToIntegerConversion : Prop :=
  ∀ (f : Fmt) (isSigned : Bool) (r : Rm) (a : BitVec f.width),
    let low : Int := if isSigned then -2147483648 else 0
    let high : Int := if isSigned then 2147483647 else 4294967295
    let least : Word := if isSigned then 0x80000000 else 0x00000000
    let greatest : Word := if isSigned then 0x7FFFFFFF else 0xFFFFFFFF
    ((unpack f a).isNan = true ∨ unpack f a = .inf false → fpuToInt f isSigned r a = (greatest, flagNV)) ∧
    (unpack f a = .inf true → fpuToInt f isSigned r a = (least, flagNV)) ∧
    (∀ x : ℚ, HasValue f a x →
      fpuToInt f isSigned r a =
        if roundToInt r x < low then (least, flagNV)
        else if high < roundToInt r x then (greatest, flagNV)
        else (BitVec.ofInt 32 (roundToInt r x), if (roundToInt r x : ℚ) = x then 0 else flagNX))

/-- R491, R493, R495: a result of finite operands is the exact real result rounded once, the fused operation's too; an exact
zero raises no flag; NX stays clear exactly if the rounding changed nothing; OF is set exactly on overflow, UF exactly where
the result is tiny after rounding and inexact, each with NX; and no rounding is invalid or a division by zero. -/
def Obligations.ResultsAreRoundedOnce : Prop :=
  let rounded (g : Fmt) (r : Rm) (res : BitVec g.width × Fflags) (v : ℚ) : Prop :=
    (v ≠ 0 → ∃ neg m e, 0 < m ∧ exactValue neg m e = v ∧ res = roundTo g r neg m e) ∧
    (v = 0 → HasValue g res.1 0 ∧ res.2 = 0)
  (∀ (f : Fmt) (r : Rm) (a b c : BitVec f.width) (x y z : ℚ), HasValue f a x → HasValue f b y → HasValue f c z →
    rounded f r (fpuAdd f r a b) (x + y) ∧ rounded f r (fpuSub f r a b) (x - y) ∧ rounded f r (fpuMul f r a b) (x * y) ∧
    rounded f r (fpuFma f r a b c) (x * y + z)) ∧
  (∀ (f : Fmt) (r : Rm) (w : Word),
    rounded f r (fpuFromInt f true r w) w.toInt ∧ rounded f r (fpuFromInt f false r w) w.toNat) ∧
  (∀ (s : Word) (v : ℚ), HasValue .S s v → HasValue .D (fpuSToD s).1 v ∧ (fpuSToD s).2 = 0) ∧
  (∀ (r : Rm) (d : DWord) (v : ℚ), HasValue .D d v → rounded .S r (fpuDToS r d) v) ∧
  ∀ (f : Fmt) (r : Rm) (neg : Bool) (m : Nat) (e : Int), 0 < m →
    let res := roundTo f r neg m e
    (res.2.getLsbD 0 = false ↔ HasValue f res.1 (exactValue neg m e)) ∧
    (res.2.getLsbD 2 = true ↔ overflows f r (exactValue neg m e : ℚ)) ∧
    (res.2.getLsbD 1 = true ↔ tinyRounded f r (exactValue neg m e : ℚ) ∧ res.2.getLsbD 0 = true) ∧
    (res.2.getLsbD 1 = true ∨ res.2.getLsbD 2 = true → res.2.getLsbD 0 = true) ∧
    res.2.getLsbD 3 = false ∧ res.2.getLsbD 4 = false

/-- R491, R460: every nonzero exact value is rounded as its mode says: to the nearest value of the format on the mode's side,
or to one that none is nearer than, a tie to the even last bit (RNE) or away from zero (RMM); to an infinity only on
overflow, which to nearest begins at the halfway point above the greatest finite value; with the sign of the exact value.
What an overflow gives in each mode (∞ under RNE and RMM, and under RDN and RUP on their own side, else the greatest finite
value) is the model's choice after IEEE 754 (log 23). -/
def Obligations.RoundingIsCorrect : Prop :=
  ∀ (f : Fmt) (r : Rm) (neg : Bool) (m : Nat) (e : Int), 0 < m →
    RoundsTo f r (exactValue neg m e : ℚ) (roundTo f r neg m e)

/-- R491: quotients and roots of nonzero finite operands are the exact real result rounded once, in all five modes. Operands
that are infinite, the signs of exact zeros, and what an overflow gives in each mode follow IEEE 754, which the model takes
as its choice (log 23). -/
def Obligations.QuotientsAndRootsRound : Prop :=
  (∀ (f : Fmt) (r : Rm) (a b : BitVec f.width) (x y : ℚ), HasValue f a x → HasValue f b y →
    (x ≠ 0 → y ≠ 0 → RoundsTo f r ((x / y : ℚ) : ℝ) (fpuDiv f r a b)) ∧
    (0 < x → RoundsTo f r (Real.sqrt (x : ℝ)) (fpuSqrt f r a)) ∧
    (x = 0 → y ≠ 0 → fpuDiv f r a b = (zeroOf f (signOf f a != signOf f b), 0)) ∧
    (x * y = 0 → fpuMul f r a b = (zeroOf f (signOf f a != signOf f b), 0)) ∧
    (x + y = 0 → fpuAdd f r a b = (zeroOf f (if signOf f a = signOf f b then signOf f a else decide (r = .rdn)), 0))) ∧
  (∀ (f : Fmt) (r : Rm) (a b : BitVec f.width) (n : Bool) (y : ℚ), unpack f a = .inf n → HasValue f b y →
    fpuAdd f r a b = (infOf f n, 0) ∧ fpuAdd f r b a = (infOf f n, 0) ∧
    fpuSub f r a b = (infOf f n, 0) ∧ fpuSub f r b a = (infOf f (!n), 0) ∧
    (y ≠ 0 → fpuMul f r a b = (infOf f (n != signOf f b), 0) ∧ fpuMul f r b a = (infOf f (n != signOf f b), 0)) ∧
    fpuDiv f r a b = (infOf f (n != signOf f b), 0) ∧ fpuDiv f r b a = (zeroOf f (n != signOf f b), 0)) ∧
  ∀ (f : Fmt) (r : Rm) (a b : BitVec f.width) (n m : Bool), unpack f a = .inf n → unpack f b = .inf m →
    (n = m → fpuAdd f r a b = (infOf f n, 0)) ∧ fpuMul f r a b = (infOf f (n != m), 0) ∧
    fpuDiv f r a b = (canonicalNan f, flagNV) ∧ (n = false → fpuSqrt f r a = (infOf f false, 0))

/-- R498: the class mask has exactly one bit set, that of the operand's class. -/
def Obligations.ClassIsOneHot : Prop :=
  ∀ (f : Fmt) (b : BitVec f.width),
    let top := 2 ^ f.expBits - 1
    let kind : Nat :=
      if expOf f b = top then
        if fracOf f b = 0 then (if signOf f b then 0 else 7)
        else if fracOf f b < 2 ^ (f.prec - 2) then 8 else 9
      else if expOf f b = 0 then
        if fracOf f b = 0 then (if signOf f b then 3 else 4) else (if signOf f b then 2 else 5)
      else (if signOf f b then 1 else 6)
    kind < 10 ∧ ∀ i : Nat, (classMask f b).getLsbD i = decide (i = kind)

/-! ## Traps, interrupts and the Driver (60_exceptions.md) -/

/-- R600, R601, R629-R631: the cause and the trap value of every synchronous exception, and its delivery: to the handler at
BASE if there is one and UIE is 1, and otherwise as the end of the run. -/
def Obligations.TrapDelivery : Prop :=
  (∀ a w n : Word,
    excCode (.addressFault .fetch .misaligned a) = 0 ∧ excCode (.addressFault .fetch .access a) = 1 ∧
    excCode (.illegalInstruction w) = 2 ∧
    excCode (.addressFault .read .misaligned a) = 4 ∧ excCode (.addressFault .read .access a) = 5 ∧
    excCode (.addressFault .write .misaligned a) = 6 ∧ excCode (.addressFault .write .access a) = 7 ∧
    excCode (.environmentCallFault n) = 8 ∧ excTval (.illegalInstruction w) = w ∧ excTval (.environmentCallFault n) = 0 ∧
    ∀ k reason, excTval (.addressFault k reason a) = a) ∧
  ∀ (e : Exc) (s : State), SyncIdle s → ∃ t, takeException e s = .next t ∧ Trapped s t e s.iter.cur

/-- R603: InternalInconsistency cannot occur, and nothing is refused: with no synchronous record pending, every instruction
in every state answers a next state with none pending, and no step of a machine with none pending raises it. -/
def Obligations.EveryInstructionAnswers : Prop :=
  (∀ (i : Instr) (s : State), SyncIdle s → ∃ t, exec i s = .next t ∧ SyncIdle t) ∧
  (∀ s : State, SyncIdle s → (∀ c, Machine.step s ≠ .fault (.internalInconsistency c)) ∧
    ∀ t, Machine.step s = .next t → SyncIdle t)

/-- R610: the single-pending policy of the controller. That a failed registration leaves check_requested as it was is the
model's choice (log 6). -/
def Obligations.SinglePending : Prop :=
  ∀ (c : Controller) (k : IrqKind) (p : Word) (r : SyncRecord),
    (c.irq k = none → (c.registerIrq k p).2 = true ∧ (c.registerIrq k p).1.irq k = some p ∧
      (∀ j, j ≠ k → (c.registerIrq k p).1.irq j = c.irq j) ∧ (c.registerIrq k p).1.sync = c.sync) ∧
    (∀ q, c.irq k = some q → c.registerIrq k p = (c, false) ∧
      ∃ d, c.claimIrq k = some (q, d) ∧ d.irq k = none ∧ (∀ j, j ≠ k → d.irq j = c.irq j) ∧ d.sync = c.sync) ∧
    (c.irq k = none → c.claimIrq k = none) ∧
    (c.sync = none → (∃ d, c.registerSync r = some d ∧ d.sync = some r ∧ ∀ j, d.irq j = c.irq j) ∧ c.claimSync = none) ∧
    (∀ q, c.sync = some q → c.registerSync r = none ∧
      ∃ d, c.claimSync = some (q, d) ∧ d.sync = none ∧ ∀ j, d.irq j = c.irq j)

/-- R624, R625, R632, R633: at most one event per boundary: external, then software, then timer, each only if enabled and
pending; and none where the iteration's own trap was delivered. -/
def Obligations.InterruptPriority : Prop :=
  ∀ s : State,
    let on (bit : Nat) : Prop := s.csr.ustatus.getLsbD 0 = true ∧ s.csr.uie.getLsbD bit = true
    let external : Prop := on 8 ∧ s.ctl.external ≠ none
    let software : Prop := s.cfg.usipDelivery = true ∧ on 0 ∧ s.csr.uip.getLsbD 0 = true
    let timer : Prop := on 4 ∧ s.ctl.timer ≠ none
    (s.iter.raised = true → s.serviceIrq = s) ∧
    (s.iter.raised = false →
      (∀ p, external → s.ctl.external = some p →
        Entered { s with ctl := { s.ctl with external := none } } s.serviceIrq 8 p) ∧
      (¬ external → software →
        Entered { s with csr := { s.csr with uip := s.csr.uip &&& ~~~(1 : Word) } } s.serviceIrq 0 0) ∧
      (∀ p, ¬ external → ¬ software → timer → s.ctl.timer = some p →
        Entered { s with ctl := { s.ctl with timer := none } } s.serviceIrq 4 p) ∧
      (¬ external → ¬ software → ¬ timer → s.serviceIrq = s))

/-- R612, R624, R628: no instruction changes a record of an outside interrupt; an iteration can only claim one, and at most
one of the two. -/
def Obligations.PendingInterrupts : Prop :=
  (∀ (i : Instr) (s t : State), exec i s = .next t → t.ctl.external = s.ctl.external ∧ t.ctl.timer = s.ctl.timer) ∧
  ∀ s t : State, Running s → Machine.step s = .next t →
    (t.ctl.external = s.ctl.external ∨ (t.ctl.external = none ∧ t.ctl.timer = s.ctl.timer)) ∧
    (t.ctl.timer = s.ctl.timer ∨ (t.ctl.timer = none ∧ t.ctl.external = s.ctl.external))

/-- R641, R642, R650, R652, R614, R624, R627: what the rest of an iteration does after the behaviour `m`: an exit only
counts as a step; otherwise a retirement counts unless the iteration raised, `time` does not run back, at most one event is
serviced as `serviceIrq` says, the check flag is cleared, bits 8 and 4 of `uip` mirror the controller's records and no other
bit changes but USIP where the software interrupt is serviced, and the termination checks are made; no other register, CSR,
record or byte changes. The form of the time draw is the model's choice (log 4); that `time` and `uip` are written and the
step counted after an unhandled stop as well is its deduction (log 10). -/
def Obligations.BoundaryUpdates : Prop :=
  ∀ m : State,
    let t := m.conclude
    let on (bit : Nat) : Prop := m.csr.ustatus.getLsbD 0 = true ∧ m.csr.uie.getLsbD bit = true
    let external : Prop := on 8 ∧ m.ctl.external ≠ none
    let software : Prop := m.cfg.usipDelivery = true ∧ on 0 ∧ m.csr.uip.getLsbD 0 = true
    let timer : Prop := on 4 ∧ m.ctl.timer ≠ none
    let taken : State := { m.serviceIrq with steps := m.steps + 1 }
    (m.exited = true → t = { m with steps := m.steps + 1 }) ∧
    (m.exited = false →
      (t.steps = m.steps + 1 ∧ t.seq = m.seq ∧ t.cfg = m.cfg ∧ t.inbox = m.inbox ∧ t.iter = m.iter ∧
        t.recording = m.recording ∧ t.draws = m.draws + 1) ∧
      (m.iter.raised = false → t.cycles = m.cycles + 1 ∧ t.instret = m.instret + 1 ∧
        t.csr.cycleh ++ t.csr.cycle = t.cycles ∧ t.csr.instreth ++ t.csr.instret = t.instret) ∧
      (m.iter.raised = true → t.cycles = m.cycles ∧ t.instret = m.instret ∧ t.csr.cycle = m.csr.cycle ∧
        t.csr.cycleh = m.csr.cycleh ∧ t.csr.instret = m.csr.instret ∧ t.csr.instreth = m.csr.instreth) ∧
      m.timeValue.toNat ≤ t.timeValue.toNat ∧
      (∀ r : Reg, t.readX r = m.readX r ∧ t.readF r = m.readF r) ∧ t.mem = m.mem ∧ t.text = m.text ∧
      t.acc = m.acc ∧ t.heapTop = m.heapTop ∧ t.csr.fcsr = m.csr.fcsr ∧ t.csr.uie = m.csr.uie ∧
      t.csr.utvec = m.csr.utvec ∧ t.csr.uscratch = m.csr.uscratch ∧
      (t.pc = taken.pc ∧ t.csr.ustatus = taken.csr.ustatus ∧ t.csr.uepc = taken.csr.uepc ∧
        t.csr.ucause = taken.csr.ucause ∧ t.csr.utval = taken.csr.utval ∧
        t.ctl = { taken.ctl with checkRequested := false }) ∧
      (t.driver = taken.terminate.driver ∧ t.stopRequested = taken.terminate.stopRequested) ∧
      (t.csr.uip.getLsbD 8 = t.ctl.external.isSome ∧ t.csr.uip.getLsbD 4 = t.ctl.timer.isSome ∧
        t.csr.uip &&& ~~~(0x111 : Word) = m.csr.uip &&& ~~~(0x111 : Word)) ∧
      (m.iter.raised = false ∧ ¬ external ∧ software → t.csr.uip.getLsbD 0 = false) ∧
      (¬ (m.iter.raised = false ∧ ¬ external ∧ software) → t.csr.uip.getLsbD 0 = m.csr.uip.getLsbD 0) ∧
      (m.iter.raised = true ∨ (¬ external ∧ ¬ software ∧ ¬ timer) →
        t.pc = m.pc ∧ t.csr.ustatus = m.csr.ustatus ∧ t.csr.uepc = m.csr.uepc ∧ t.csr.ucause = m.csr.ucause ∧
        t.csr.utval = m.csr.utval ∧ t.ctl.external = m.ctl.external ∧ t.ctl.timer = m.ctl.timer ∧
        t.ctl.sync = m.ctl.sync))

/-- R640: the termination checks in their order; a request is cleared only by the stop it causes. -/
def Obligations.TerminationOrder : Prop :=
  ∀ s : State, (∀ r, s.driver ≠ .stopped r) →
    let b : Prop := s.iter.breakpointHit = true ∨ s.pc ∈ s.cfg.breakpoints
    let m : Prop := ∃ n, s.cfg.maxSteps = some n ∧ n ≤ s.steps
    (b → s.terminate = { s with driver := .stopped .breakpoint }) ∧
    (¬ b → m → s.terminate = { s with driver := .stopped .maxSteps }) ∧
    (¬ b → ¬ m → s.stopRequested = true →
      s.terminate = { s with driver := .stopped .userStop, stopRequested := false }) ∧
    (¬ b → ¬ m → s.stopRequested = false →
      (∀ n, s.driver = .stepping n → n ≤ 1 → s.terminate = { s with driver := .stopped .stepDone }) ∧
      (∀ n, s.driver = .stepping n → 1 < n → s.terminate = { s with driver := .stepping (n - 1) }) ∧
      ((∀ n, s.driver ≠ .stepping n) → s.terminate = s))

/-- R172, R245, R620: a step of a running machine fetches at `pc` and takes the trap of a bad address or of a word that is no
instruction of DESCRIPTORS, or stops at the cliff. -/
def Obligations.StepFetchOutcomes : Prop :=
  ∀ s : State, Running s → SyncIdle s →
    let trapped (e : Exc) : Prop :=
      ∃ m, Trapped s.beginStep m e s.pc ∧ Machine.step s = .next m.conclude
    (s.pc.toNat % 4 ≠ 0 → trapped (.addressFault .fetch .misaligned s.pc)) ∧
    (s.pc.toNat % 4 = 0 → executableAt s.cfg.memMap s.pc = false → trapped (.addressFault .fetch .access s.pc)) ∧
    (s.pc.toNat % 4 = 0 → executableAt s.cfg.memMap s.pc = true →
      (storeFind s.text s.pc.toNat = none → ∃ t, Machine.step s = .next t ∧ t.driver = .stopped .cliff ∧ t.pc = s.pc ∧
        t.steps = s.steps ∧ t.cycles = s.cycles ∧ t.csr = s.csr ∧ t.ctl = s.ctl ∧ t.x = s.x ∧ t.f = s.f ∧
        t.mem = s.mem ∧ t.text = s.text) ∧
      (∀ w, storeFind s.text s.pc.toNat = some w → decodeWith s.cfg.descriptors w = none → trapped (.illegalInstruction w)))

/-- R4, R620: where a descriptor accepts the word at `pc`, a step is `exec` of that instruction, with the start of an iteration before it
(the step number advanced, the iteration's variables set) and the rest of the iteration after it. -/
def Obligations.StepRunsDecodedInstruction : Prop :=
  Config.reference.descriptors = descriptors ∧
  ∀ (s : State) (w : Word) (d : Descriptor), Running s → s.pc.toNat % 4 = 0 → executableAt s.cfg.memMap s.pc = true →
    StatementAt s w → decodeWith s.cfg.descriptors w = some d →
    let i := d.build w
    (s.cfg.descriptors = descriptors → decode w = some i) ∧
    (∀ m, exec i s.beginStep = .next m → Machine.step s = .next m.conclude) ∧
    (∀ r, exec i s.beginStep = .fault r → Machine.step s = .fault r) ∧
    (∀ r, exec i s.beginStep = .refused r → Machine.step s = .refused r) ∧
    s.beginStep = { s with seq := s.seq + 1, iter := ⟨s.pc, false, false, false, some (s.seq + 1), s.cycles, s.instret⟩ }

/-- R621, R680, R186, R683: the host's commands move the Driver between its states; writes, undo and reset wait for a pause,
reads and the stop request do not; a device writes only into MMIO. That a command
outside R621 is refused, and that an undo with nothing to undo leaves the Driver as it is, is the model's choice (log 19);
that a registration which fails leaves check_requested as it was is its choice too (log 6). A number no bank holds is
absent (R51). A set is the ordinary write of the register's bank, and a get shows what was last written: the model's choice
is that a one-word register takes the low 32 bits (log 26). Names select as R54, R58, R70 and R86 say, an accumulator only by
a name of its own (log 21). That a memory get in MMIO answers the stored bytes is the model's deduction (log 29). -/
def Obligations.HostCommands : Prop :=
  ∀ s : State,
    let paused : Prop := s.driver = .ready ∨ s.driver = .stopped .breakpoint ∨ s.driver = .stopped .maxSteps ∨
      s.driver = .stopped .userStop ∨ s.driver = .stopped .stepDone
    let busy : Prop := s.driver = .running ∨ ∃ n, s.driver = .stepping n
    (paused → applyEvent .run s = .next { s with driver := .running } ∧
      ∀ n, 1 ≤ n → applyEvent (.step n) s = .next { s with driver := .stepping n }) ∧
    (paused → applyEvent (.step 0) s = .refused .commandNotAccepted) ∧
    (¬ paused → applyEvent .run s = .refused .commandNotAccepted ∧
      ∀ n, applyEvent (.step n) s = .refused .commandNotAccepted) ∧
    applyEvent .stop s = .next { s with stopRequested := true } ∧
    applyEvent .queryStop s = .next { s with outputs := .driver s.driver :: s.outputs } ∧
    (∀ k p, s.ctl.irq k = none → applyEvent (.register k p) s =
      .next { s with ctl := { s.ctl.setIrq k (some p) with checkRequested := true },
                     outputs := .registered k true :: s.outputs }) ∧
    (∀ k p, s.ctl.irq k ≠ none → applyEvent (.register k p) s =
      .next { s with outputs := .registered k false :: s.outputs }) ∧
    (s.ring = [] → s.undo = { s with outputs := .nothingToUndo :: s.outputs }) ∧
    (∀ r : Reg, s.locOf (.gpr r.toNat) = some (.gpr r) ∧ s.locOf (.fpr r.toNat) = some (.fpr r)) ∧
    (∀ n, 32 ≤ n → s.locOf (.gpr n) = none ∧ s.locOf (.fpr n) = none) ∧
    (∀ n c, s.locOf (.csr n) = some (.csr c) ↔ c.number.toNat = n) ∧
    (∀ n, (∀ c : Csr, c.number.toNat ≠ n) → s.locOf (.csr n) = none) ∧
    -- names
    (s.locOf .pc = some .pc ∧ s.locOf (.named "pc") = some .pc ∧ s.locOf (.named "fp") = some (.gpr 8)) ∧
    (∀ (i : Nat) (n : String),
      (["zero", "ra", "sp", "gp", "tp", "t0", "t1", "t2", "s0", "s1", "a0", "a1", "a2", "a3", "a4", "a5",
        "a6", "a7", "s2", "s3", "s4", "s5", "s6", "s7", "s8", "s9", "s10", "s11", "t3", "t4", "t5", "t6"])[i]? = some n →
      s.locOf (.named n) = some (.gpr (BitVec.ofNat 5 i))) ∧
    (∀ (i : Nat) (n : String),
      (["ft0", "ft1", "ft2", "ft3", "ft4", "ft5", "ft6", "ft7", "fs0", "fs1", "fa0", "fa1", "fa2", "fa3", "fa4", "fa5",
        "fa6", "fa7", "fs2", "fs3", "fs4", "fs5", "fs6", "fs7", "fs8", "fs9", "fs10", "fs11",
        "ft8", "ft9", "ft10", "ft11"])[i]? = some n →
      s.locOf (.named n) = some (.fpr (BitVec.ofNat 5 i))) ∧
    (∀ i : Nat, i < 32 → s.locOf (.named ("x" ++ toString i)) = some (.gpr (BitVec.ofNat 5 i)) ∧
      s.locOf (.named ("f" ++ toString i)) = some (.fpr (BitVec.ofNat 5 i))) ∧
    (∀ c : Csr, s.locOf (.named c.name) = some (.csr c)) ∧
    (∀ n : String, n ∉ ["pc", "fp"] ++ gprNames ++ xNames ++ fprNames ++ fNames ++ allCsrs.map Csr.name →
      s.locOf (.named n) = if (accFind s.acc n).isSome then some (.acc n) else none) ∧
    -- gets and sets
    (∀ (r : Reg) (v : DWord), s.getLoc (.gpr r) = (s.readX r).setWidth 64 ∧
      s.setLoc (.gpr r) v = s.writeX r (v.setWidth 32) ∧
      (s.setLoc (.gpr r) v).getLoc (.gpr r) = if r = 0 then 0 else v &&& 0xFFFFFFFF) ∧
    (∀ (r : Reg) (v : DWord), s.getLoc (.fpr r) = s.readF r ∧ s.setLoc (.fpr r) v = s.writeF r v ∧
      (s.setLoc (.fpr r) v).getLoc (.fpr r) = v) ∧
    (∀ v : DWord, s.getLoc .pc = s.pc.setWidth 64 ∧ s.setLoc .pc v = s.writePc (v.setWidth 32) ∧
      (s.setLoc .pc v).getLoc .pc = v &&& 0xFFFFFFFF) ∧
    (∀ (c : Csr) (v : DWord), s.getLoc (.csr c) = (csrShown s.csr c).setWidth 64 ∧
      s.setLoc (.csr c) v = s.csrWrite c (v.setWidth 32) ∧
      (s.setLoc (.csr c) v).csr = csrWritten s.csr c (v.setWidth 32)) ∧
    (∀ (n : String) (v : DWord), s.getLoc (.acc n) = ((accFind s.acc n).getD 0).setWidth 64 ∧
      s.setLoc (.acc n) v = s.writeAcc n (v.setWidth 32) ∧
      ((accFind s.acc n).isSome = true → (s.setLoc (.acc n) v).getLoc (.acc n) = v &&& 0xFFFFFFFF)) ∧
    (∀ (l k : RegLoc) (v : DWord), k ≠ l → ¬ (∃ c d, l = .csr c ∧ k = .csr d) → (s.setLoc l v).getLoc k = s.getLoc k) ∧
    (busy → applyEvent .reset s = .refused .hostWriteWhileRunning ∧
      applyEvent .undo s = .refused .hostWriteWhileRunning ∧
      (∀ r v, applyEvent (.setReg r v) s = .refused .hostWriteWhileRunning) ∧
      ∀ a w v, applyEvent (.setMem a w v) s = .refused .hostWriteWhileRunning) ∧
    (¬ busy → applyEvent .reset s = .next s.hostReset ∧ applyEvent .undo s = .next s.undo ∧
      (∀ r v l, s.locOf r = some l →
        applyEvent (.setReg r v) s = .next ((s.setLoc l v).emit (.value (s.getLoc l)))) ∧
      (∀ r v, s.locOf r = none → applyEvent (.setReg r v) s = .next (s.emit .absent)) ∧
      ∀ a w v, applyEvent (.setMem a w v) s = .next (s.rawWrite a w v)) ∧
    (∀ r l, s.locOf r = some l → applyEvent (.getReg r) s = .next (s.emit (.value (s.getLoc l)))) ∧
    (∀ r, s.locOf r = none → applyEvent (.getReg r) s = .next (s.emit .absent)) ∧
    (∀ a w, applyEvent (.getMem a w) s = .next (s.emit (.value ((s.rawRead a w).setWidth 64)))) ∧
    (∀ a w v, (∀ b, Within a (bytesOf w) b → classAt s.cfg.memMap b = .mmio) →
      applyEvent (.deviceWrite a w v) s = .next (s.rawWrite a w v)) ∧
    (∀ a w v b, Within a (bytesOf w) b → classAt s.cfg.memMap b ≠ .mmio →
      applyEvent (.deviceWrite a w v) s = .refused .deviceWriteOutsideMmio)

/-- R661, R701: every entry an iteration leaves in the BackStepper carries the iteration's own step number, one more than the
last; and no step changes the parameters. -/
def Obligations.StepNumbers : Prop :=
  (∀ s t : State, Running s → Machine.step s = .next t →
    t.seq = s.seq + 1 ∧ ∀ e ∈ t.ring, e ∈ s.ring ∨ e.step = some (s.seq + 1)) ∧
  (∀ s t : State, Machine.step s = .next t → t.cfg = s.cfg)

/-! ## The invariant and the step/undo law -/

/-- The machine after reset meets the invariant, under every parameter. -/
def Obligations.ResetMeetsInvariant : Prop := ∀ c : Config, Inv (State.resetWith c)

/-- The invariant (Safety.lean `Inv`) holds after every step from every state it holds in: instructions, traps, interrupts,
host commands, device events, undo and reset. -/
def Obligations.StepKeepsInvariant : Prop :=
  ∀ s t : State, Inv s → Machine.step s = .next t → Inv t

/-- R661, R664, R665: undoing an iteration whose entries are all in the ring brings back every register, all memory, the heap and
the retirement counts, and the ring itself; the controller, `steps` and `time` stay, and the Driver is resumable. A write
of the host at a boundary undoes on its own, whatever stands below it in the ring (that it carries no saved pc is log 13). -/
def Obligations.UndoInvertsStep : Prop :=
  (∀ s t : State, Inv s → Running s → s.recording = true → Machine.step s = .next t → ¬ EndedEarly t →
    t.ring.length < t.cfg.backstepCapacity →
    let u := t.undo
    u.x = s.x ∧ u.f = s.f ∧ u.pc = s.pc ∧ u.acc = s.acc ∧
    u.csr = { s.csr with time := t.csr.time, timeh := t.csr.timeh } ∧
    u.mem = s.mem ∧ u.text = s.text ∧ u.heapTop = s.heapTop ∧ u.cycles = s.cycles ∧ u.instret = s.instret ∧
    u.ring = s.ring ∧ u.ctl = t.ctl ∧ u.steps = t.steps ∧ u.driver = .stopped .userStop) ∧
  ∀ s t : State, Inv s → s.iter.step = none → s.recording = true → s.ring.length < s.cfg.backstepCapacity →
    (∃ l v, t = s.setLoc l v) ∨ (∃ a w v, t = s.rawWrite a w v) → t ≠ s →
    (∃ e, t.ring = e :: s.ring ∧ e.step = none ∧ e.savedPc = none) ∧
    let u := t.undo
    u.x = s.x ∧ u.f = s.f ∧ u.pc = s.pc ∧ u.acc = s.acc ∧ u.csr = s.csr ∧ u.mem = s.mem ∧ u.text = s.text ∧
    u.heapTop = s.heapTop ∧ u.cycles = s.cycles ∧ u.instret = s.instret ∧ u.ring = s.ring ∧ u.ctl = s.ctl ∧
    u.steps = s.steps ∧ u.driver = .stopped .userStop
end

