-- ==== Sys2Proof/Laws/State.lean ====
section
/-! SUPPORT. What each operation leaves unchanged, one lemma per field: a later proof needs no operation unfolded to
see that a field is untouched. -/

namespace Sys2Proof.Machine

/-! ### Recording and output -/

@[simp] theorem State.record_x (s : State) (c : Change) :
    (s.record c).x = s.x := by
  unfold State.record; split <;> rfl

@[simp] theorem State.record_pc (s : State) (c : Change) :
    (s.record c).pc = s.pc := by
  unfold State.record; split <;> rfl

@[simp] theorem State.record_acc (s : State) (c : Change) :
    (s.record c).acc = s.acc := by
  unfold State.record; split <;> rfl

@[simp] theorem State.record_f (s : State) (c : Change) :
    (s.record c).f = s.f := by
  unfold State.record; split <;> rfl

@[simp] theorem State.record_csr (s : State) (c : Change) :
    (s.record c).csr = s.csr := by
  unfold State.record; split <;> rfl

@[simp] theorem State.record_ctl (s : State) (c : Change) :
    (s.record c).ctl = s.ctl := by
  unfold State.record; split <;> rfl

@[simp] theorem State.record_driver (s : State) (c : Change) :
    (s.record c).driver = s.driver := by
  unfold State.record; split <;> rfl

@[simp] theorem State.record_iter (s : State) (c : Change) :
    (s.record c).iter = s.iter := by
  unfold State.record; split <;> rfl

@[simp] theorem State.record_steps (s : State) (c : Change) :
    (s.record c).steps = s.steps := by
  unfold State.record; split <;> rfl

@[simp] theorem State.record_cycles (s : State) (c : Change) :
    (s.record c).cycles = s.cycles := by
  unfold State.record; split <;> rfl

@[simp] theorem State.record_instret (s : State) (c : Change) :
    (s.record c).instret = s.instret := by
  unfold State.record; split <;> rfl

@[simp] theorem State.record_seq (s : State) (c : Change) :
    (s.record c).seq = s.seq := by
  unfold State.record; split <;> rfl

@[simp] theorem State.record_stopRequested (s : State) (c : Change) :
    (s.record c).stopRequested = s.stopRequested := by
  unfold State.record; split <;> rfl

@[simp] theorem State.record_mem (s : State) (c : Change) :
    (s.record c).mem = s.mem := by
  unfold State.record; split <;> rfl

@[simp] theorem State.record_text (s : State) (c : Change) :
    (s.record c).text = s.text := by
  unfold State.record; split <;> rfl

@[simp] theorem State.record_heapTop (s : State) (c : Change) :
    (s.record c).heapTop = s.heapTop := by
  unfold State.record; split <;> rfl

@[simp] theorem State.record_recording (s : State) (c : Change) :
    (s.record c).recording = s.recording := by
  unfold State.record; split <;> rfl

@[simp] theorem State.record_cfg (s : State) (c : Change) :
    (s.record c).cfg = s.cfg := by
  unfold State.record; split <;> rfl

@[simp] theorem State.record_inbox (s : State) (c : Change) :
    (s.record c).inbox = s.inbox := by
  unfold State.record; split <;> rfl

@[simp] theorem State.record_outputs (s : State) (c : Change) :
    (s.record c).outputs = s.outputs := by
  unfold State.record; split <;> rfl

@[simp] theorem State.record_draws (s : State) (c : Change) :
    (s.record c).draws = s.draws := by
  unfold State.record; split <;> rfl

@[simp] theorem State.emit_x (s : State) (o : Output) :
    (s.emit o).x = s.x := by
  rfl

@[simp] theorem State.emit_pc (s : State) (o : Output) :
    (s.emit o).pc = s.pc := by
  rfl

@[simp] theorem State.emit_acc (s : State) (o : Output) :
    (s.emit o).acc = s.acc := by
  rfl

@[simp] theorem State.emit_f (s : State) (o : Output) :
    (s.emit o).f = s.f := by
  rfl

@[simp] theorem State.emit_csr (s : State) (o : Output) :
    (s.emit o).csr = s.csr := by
  rfl

@[simp] theorem State.emit_ctl (s : State) (o : Output) :
    (s.emit o).ctl = s.ctl := by
  rfl

@[simp] theorem State.emit_driver (s : State) (o : Output) :
    (s.emit o).driver = s.driver := by
  rfl

@[simp] theorem State.emit_iter (s : State) (o : Output) :
    (s.emit o).iter = s.iter := by
  rfl

@[simp] theorem State.emit_steps (s : State) (o : Output) :
    (s.emit o).steps = s.steps := by
  rfl

@[simp] theorem State.emit_cycles (s : State) (o : Output) :
    (s.emit o).cycles = s.cycles := by
  rfl

@[simp] theorem State.emit_instret (s : State) (o : Output) :
    (s.emit o).instret = s.instret := by
  rfl

@[simp] theorem State.emit_seq (s : State) (o : Output) :
    (s.emit o).seq = s.seq := by
  rfl

@[simp] theorem State.emit_stopRequested (s : State) (o : Output) :
    (s.emit o).stopRequested = s.stopRequested := by
  rfl

@[simp] theorem State.emit_mem (s : State) (o : Output) :
    (s.emit o).mem = s.mem := by
  rfl

@[simp] theorem State.emit_text (s : State) (o : Output) :
    (s.emit o).text = s.text := by
  rfl

@[simp] theorem State.emit_heapTop (s : State) (o : Output) :
    (s.emit o).heapTop = s.heapTop := by
  rfl

@[simp] theorem State.emit_ring (s : State) (o : Output) :
    (s.emit o).ring = s.ring := by
  rfl

@[simp] theorem State.emit_recording (s : State) (o : Output) :
    (s.emit o).recording = s.recording := by
  rfl

@[simp] theorem State.emit_cfg (s : State) (o : Output) :
    (s.emit o).cfg = s.cfg := by
  rfl

@[simp] theorem State.emit_inbox (s : State) (o : Output) :
    (s.emit o).inbox = s.inbox := by
  rfl

@[simp] theorem State.emit_draws (s : State) (o : Output) :
    (s.emit o).draws = s.draws := by
  rfl

/-! ### Register banks -/

@[simp] theorem State.writeX_pc (s : State) (r : Reg) (v : Word) :
    (s.writeX r v).pc = s.pc := by
  unfold State.writeX; split; · rfl
  split; · rfl
  simp

@[simp] theorem State.writeX_acc (s : State) (r : Reg) (v : Word) :
    (s.writeX r v).acc = s.acc := by
  unfold State.writeX; split; · rfl
  split; · rfl
  simp

@[simp] theorem State.writeX_f (s : State) (r : Reg) (v : Word) :
    (s.writeX r v).f = s.f := by
  unfold State.writeX; split; · rfl
  split; · rfl
  simp

@[simp] theorem State.writeX_csr (s : State) (r : Reg) (v : Word) :
    (s.writeX r v).csr = s.csr := by
  unfold State.writeX; split; · rfl
  split; · rfl
  simp

@[simp] theorem State.writeX_ctl (s : State) (r : Reg) (v : Word) :
    (s.writeX r v).ctl = s.ctl := by
  unfold State.writeX; split; · rfl
  split; · rfl
  simp

@[simp] theorem State.writeX_driver (s : State) (r : Reg) (v : Word) :
    (s.writeX r v).driver = s.driver := by
  unfold State.writeX; split; · rfl
  split; · rfl
  simp

@[simp] theorem State.writeX_iter (s : State) (r : Reg) (v : Word) :
    (s.writeX r v).iter = s.iter := by
  unfold State.writeX; split; · rfl
  split; · rfl
  simp

@[simp] theorem State.writeX_steps (s : State) (r : Reg) (v : Word) :
    (s.writeX r v).steps = s.steps := by
  unfold State.writeX; split; · rfl
  split; · rfl
  simp

@[simp] theorem State.writeX_cycles (s : State) (r : Reg) (v : Word) :
    (s.writeX r v).cycles = s.cycles := by
  unfold State.writeX; split; · rfl
  split; · rfl
  simp

@[simp] theorem State.writeX_instret (s : State) (r : Reg) (v : Word) :
    (s.writeX r v).instret = s.instret := by
  unfold State.writeX; split; · rfl
  split; · rfl
  simp

@[simp] theorem State.writeX_seq (s : State) (r : Reg) (v : Word) :
    (s.writeX r v).seq = s.seq := by
  unfold State.writeX; split; · rfl
  split; · rfl
  simp

@[simp] theorem State.writeX_stopRequested (s : State) (r : Reg) (v : Word) :
    (s.writeX r v).stopRequested = s.stopRequested := by
  unfold State.writeX; split; · rfl
  split; · rfl
  simp

@[simp] theorem State.writeX_mem (s : State) (r : Reg) (v : Word) :
    (s.writeX r v).mem = s.mem := by
  unfold State.writeX; split; · rfl
  split; · rfl
  simp

@[simp] theorem State.writeX_text (s : State) (r : Reg) (v : Word) :
    (s.writeX r v).text = s.text := by
  unfold State.writeX; split; · rfl
  split; · rfl
  simp

@[simp] theorem State.writeX_heapTop (s : State) (r : Reg) (v : Word) :
    (s.writeX r v).heapTop = s.heapTop := by
  unfold State.writeX; split; · rfl
  split; · rfl
  simp

@[simp] theorem State.writeX_recording (s : State) (r : Reg) (v : Word) :
    (s.writeX r v).recording = s.recording := by
  unfold State.writeX; split; · rfl
  split; · rfl
  simp

@[simp] theorem State.writeX_cfg (s : State) (r : Reg) (v : Word) :
    (s.writeX r v).cfg = s.cfg := by
  unfold State.writeX; split; · rfl
  split; · rfl
  simp

@[simp] theorem State.writeX_inbox (s : State) (r : Reg) (v : Word) :
    (s.writeX r v).inbox = s.inbox := by
  unfold State.writeX; split; · rfl
  split; · rfl
  simp

@[simp] theorem State.writeX_draws (s : State) (r : Reg) (v : Word) :
    (s.writeX r v).draws = s.draws := by
  unfold State.writeX; split; · rfl
  split; · rfl
  simp

@[simp] theorem State.writePc_x (s : State) (v : Word) :
    (s.writePc v).x = s.x := by
  unfold State.writePc; split <;> simp

@[simp] theorem State.writePc_acc (s : State) (v : Word) :
    (s.writePc v).acc = s.acc := by
  unfold State.writePc; split <;> simp

@[simp] theorem State.writePc_f (s : State) (v : Word) :
    (s.writePc v).f = s.f := by
  unfold State.writePc; split <;> simp

@[simp] theorem State.writePc_csr (s : State) (v : Word) :
    (s.writePc v).csr = s.csr := by
  unfold State.writePc; split <;> simp

@[simp] theorem State.writePc_ctl (s : State) (v : Word) :
    (s.writePc v).ctl = s.ctl := by
  unfold State.writePc; split <;> simp

@[simp] theorem State.writePc_driver (s : State) (v : Word) :
    (s.writePc v).driver = s.driver := by
  unfold State.writePc; split <;> simp

@[simp] theorem State.writePc_iter (s : State) (v : Word) :
    (s.writePc v).iter = s.iter := by
  unfold State.writePc; split <;> simp

@[simp] theorem State.writePc_steps (s : State) (v : Word) :
    (s.writePc v).steps = s.steps := by
  unfold State.writePc; split <;> simp

@[simp] theorem State.writePc_cycles (s : State) (v : Word) :
    (s.writePc v).cycles = s.cycles := by
  unfold State.writePc; split <;> simp

@[simp] theorem State.writePc_instret (s : State) (v : Word) :
    (s.writePc v).instret = s.instret := by
  unfold State.writePc; split <;> simp

@[simp] theorem State.writePc_seq (s : State) (v : Word) :
    (s.writePc v).seq = s.seq := by
  unfold State.writePc; split <;> simp

@[simp] theorem State.writePc_stopRequested (s : State) (v : Word) :
    (s.writePc v).stopRequested = s.stopRequested := by
  unfold State.writePc; split <;> simp

@[simp] theorem State.writePc_mem (s : State) (v : Word) :
    (s.writePc v).mem = s.mem := by
  unfold State.writePc; split <;> simp

@[simp] theorem State.writePc_text (s : State) (v : Word) :
    (s.writePc v).text = s.text := by
  unfold State.writePc; split <;> simp

@[simp] theorem State.writePc_heapTop (s : State) (v : Word) :
    (s.writePc v).heapTop = s.heapTop := by
  unfold State.writePc; split <;> simp

@[simp] theorem State.writePc_recording (s : State) (v : Word) :
    (s.writePc v).recording = s.recording := by
  unfold State.writePc; split <;> simp

@[simp] theorem State.writePc_cfg (s : State) (v : Word) :
    (s.writePc v).cfg = s.cfg := by
  unfold State.writePc; split <;> simp

@[simp] theorem State.writePc_inbox (s : State) (v : Word) :
    (s.writePc v).inbox = s.inbox := by
  unfold State.writePc; split <;> simp

@[simp] theorem State.writePc_draws (s : State) (v : Word) :
    (s.writePc v).draws = s.draws := by
  unfold State.writePc; split <;> simp

@[simp] theorem State.jumpTo_x (s : State) (t : Word) :
    (s.jumpTo t).x = s.x := by
  unfold State.jumpTo; dsimp only; split <;> simp

@[simp] theorem State.jumpTo_acc (s : State) (t : Word) :
    (s.jumpTo t).acc = s.acc := by
  unfold State.jumpTo; dsimp only; split <;> simp

@[simp] theorem State.jumpTo_f (s : State) (t : Word) :
    (s.jumpTo t).f = s.f := by
  unfold State.jumpTo; dsimp only; split <;> simp

@[simp] theorem State.jumpTo_csr (s : State) (t : Word) :
    (s.jumpTo t).csr = s.csr := by
  unfold State.jumpTo; dsimp only; split <;> simp

@[simp] theorem State.jumpTo_ctl (s : State) (t : Word) :
    (s.jumpTo t).ctl = s.ctl := by
  unfold State.jumpTo; dsimp only; split <;> simp

@[simp] theorem State.jumpTo_driver (s : State) (t : Word) :
    (s.jumpTo t).driver = s.driver := by
  unfold State.jumpTo; dsimp only; split <;> simp

@[simp] theorem State.jumpTo_steps (s : State) (t : Word) :
    (s.jumpTo t).steps = s.steps := by
  unfold State.jumpTo; dsimp only; split <;> simp

@[simp] theorem State.jumpTo_cycles (s : State) (t : Word) :
    (s.jumpTo t).cycles = s.cycles := by
  unfold State.jumpTo; dsimp only; split <;> simp

@[simp] theorem State.jumpTo_instret (s : State) (t : Word) :
    (s.jumpTo t).instret = s.instret := by
  unfold State.jumpTo; dsimp only; split <;> simp

@[simp] theorem State.jumpTo_seq (s : State) (t : Word) :
    (s.jumpTo t).seq = s.seq := by
  unfold State.jumpTo; dsimp only; split <;> simp

@[simp] theorem State.jumpTo_stopRequested (s : State) (t : Word) :
    (s.jumpTo t).stopRequested = s.stopRequested := by
  unfold State.jumpTo; dsimp only; split <;> simp

@[simp] theorem State.jumpTo_mem (s : State) (t : Word) :
    (s.jumpTo t).mem = s.mem := by
  unfold State.jumpTo; dsimp only; split <;> simp

@[simp] theorem State.jumpTo_text (s : State) (t : Word) :
    (s.jumpTo t).text = s.text := by
  unfold State.jumpTo; dsimp only; split <;> simp

@[simp] theorem State.jumpTo_heapTop (s : State) (t : Word) :
    (s.jumpTo t).heapTop = s.heapTop := by
  unfold State.jumpTo; dsimp only; split <;> simp

@[simp] theorem State.jumpTo_recording (s : State) (t : Word) :
    (s.jumpTo t).recording = s.recording := by
  unfold State.jumpTo; dsimp only; split <;> simp

@[simp] theorem State.jumpTo_cfg (s : State) (t : Word) :
    (s.jumpTo t).cfg = s.cfg := by
  unfold State.jumpTo; dsimp only; split <;> simp

@[simp] theorem State.jumpTo_inbox (s : State) (t : Word) :
    (s.jumpTo t).inbox = s.inbox := by
  unfold State.jumpTo; dsimp only; split <;> simp

@[simp] theorem State.jumpTo_draws (s : State) (t : Word) :
    (s.jumpTo t).draws = s.draws := by
  unfold State.jumpTo; dsimp only; split <;> simp

@[simp] theorem State.writeAcc_x (s : State) (n : String) (v : Word) :
    (s.writeAcc n v).x = s.x := by
  unfold State.writeAcc; split; · rfl
  split; · rfl
  simp

@[simp] theorem State.writeAcc_pc (s : State) (n : String) (v : Word) :
    (s.writeAcc n v).pc = s.pc := by
  unfold State.writeAcc; split; · rfl
  split; · rfl
  simp

@[simp] theorem State.writeAcc_f (s : State) (n : String) (v : Word) :
    (s.writeAcc n v).f = s.f := by
  unfold State.writeAcc; split; · rfl
  split; · rfl
  simp

@[simp] theorem State.writeAcc_csr (s : State) (n : String) (v : Word) :
    (s.writeAcc n v).csr = s.csr := by
  unfold State.writeAcc; split; · rfl
  split; · rfl
  simp

@[simp] theorem State.writeAcc_ctl (s : State) (n : String) (v : Word) :
    (s.writeAcc n v).ctl = s.ctl := by
  unfold State.writeAcc; split; · rfl
  split; · rfl
  simp

@[simp] theorem State.writeAcc_driver (s : State) (n : String) (v : Word) :
    (s.writeAcc n v).driver = s.driver := by
  unfold State.writeAcc; split; · rfl
  split; · rfl
  simp

@[simp] theorem State.writeAcc_iter (s : State) (n : String) (v : Word) :
    (s.writeAcc n v).iter = s.iter := by
  unfold State.writeAcc; split; · rfl
  split; · rfl
  simp

@[simp] theorem State.writeAcc_steps (s : State) (n : String) (v : Word) :
    (s.writeAcc n v).steps = s.steps := by
  unfold State.writeAcc; split; · rfl
  split; · rfl
  simp

@[simp] theorem State.writeAcc_cycles (s : State) (n : String) (v : Word) :
    (s.writeAcc n v).cycles = s.cycles := by
  unfold State.writeAcc; split; · rfl
  split; · rfl
  simp

@[simp] theorem State.writeAcc_instret (s : State) (n : String) (v : Word) :
    (s.writeAcc n v).instret = s.instret := by
  unfold State.writeAcc; split; · rfl
  split; · rfl
  simp

@[simp] theorem State.writeAcc_seq (s : State) (n : String) (v : Word) :
    (s.writeAcc n v).seq = s.seq := by
  unfold State.writeAcc; split; · rfl
  split; · rfl
  simp

@[simp] theorem State.writeAcc_stopRequested (s : State) (n : String) (v : Word) :
    (s.writeAcc n v).stopRequested = s.stopRequested := by
  unfold State.writeAcc; split; · rfl
  split; · rfl
  simp

@[simp] theorem State.writeAcc_mem (s : State) (n : String) (v : Word) :
    (s.writeAcc n v).mem = s.mem := by
  unfold State.writeAcc; split; · rfl
  split; · rfl
  simp

@[simp] theorem State.writeAcc_text (s : State) (n : String) (v : Word) :
    (s.writeAcc n v).text = s.text := by
  unfold State.writeAcc; split; · rfl
  split; · rfl
  simp

@[simp] theorem State.writeAcc_heapTop (s : State) (n : String) (v : Word) :
    (s.writeAcc n v).heapTop = s.heapTop := by
  unfold State.writeAcc; split; · rfl
  split; · rfl
  simp

@[simp] theorem State.writeAcc_recording (s : State) (n : String) (v : Word) :
    (s.writeAcc n v).recording = s.recording := by
  unfold State.writeAcc; split; · rfl
  split; · rfl
  simp

@[simp] theorem State.writeAcc_cfg (s : State) (n : String) (v : Word) :
    (s.writeAcc n v).cfg = s.cfg := by
  unfold State.writeAcc; split; · rfl
  split; · rfl
  simp

@[simp] theorem State.writeAcc_inbox (s : State) (n : String) (v : Word) :
    (s.writeAcc n v).inbox = s.inbox := by
  unfold State.writeAcc; split; · rfl
  split; · rfl
  simp

@[simp] theorem State.writeAcc_draws (s : State) (n : String) (v : Word) :
    (s.writeAcc n v).draws = s.draws := by
  unfold State.writeAcc; split; · rfl
  split; · rfl
  simp

@[simp] theorem State.writeF_x (s : State) (r : Reg) (v : DWord) :
    (s.writeF r v).x = s.x := by
  unfold State.writeF; split; · rfl
  simp

@[simp] theorem State.writeF_pc (s : State) (r : Reg) (v : DWord) :
    (s.writeF r v).pc = s.pc := by
  unfold State.writeF; split; · rfl
  simp

@[simp] theorem State.writeF_acc (s : State) (r : Reg) (v : DWord) :
    (s.writeF r v).acc = s.acc := by
  unfold State.writeF; split; · rfl
  simp

@[simp] theorem State.writeF_csr (s : State) (r : Reg) (v : DWord) :
    (s.writeF r v).csr = s.csr := by
  unfold State.writeF; split; · rfl
  simp

@[simp] theorem State.writeF_ctl (s : State) (r : Reg) (v : DWord) :
    (s.writeF r v).ctl = s.ctl := by
  unfold State.writeF; split; · rfl
  simp

@[simp] theorem State.writeF_driver (s : State) (r : Reg) (v : DWord) :
    (s.writeF r v).driver = s.driver := by
  unfold State.writeF; split; · rfl
  simp

@[simp] theorem State.writeF_iter (s : State) (r : Reg) (v : DWord) :
    (s.writeF r v).iter = s.iter := by
  unfold State.writeF; split; · rfl
  simp

@[simp] theorem State.writeF_steps (s : State) (r : Reg) (v : DWord) :
    (s.writeF r v).steps = s.steps := by
  unfold State.writeF; split; · rfl
  simp

@[simp] theorem State.writeF_cycles (s : State) (r : Reg) (v : DWord) :
    (s.writeF r v).cycles = s.cycles := by
  unfold State.writeF; split; · rfl
  simp

@[simp] theorem State.writeF_instret (s : State) (r : Reg) (v : DWord) :
    (s.writeF r v).instret = s.instret := by
  unfold State.writeF; split; · rfl
  simp

@[simp] theorem State.writeF_seq (s : State) (r : Reg) (v : DWord) :
    (s.writeF r v).seq = s.seq := by
  unfold State.writeF; split; · rfl
  simp

@[simp] theorem State.writeF_stopRequested (s : State) (r : Reg) (v : DWord) :
    (s.writeF r v).stopRequested = s.stopRequested := by
  unfold State.writeF; split; · rfl
  simp

@[simp] theorem State.writeF_mem (s : State) (r : Reg) (v : DWord) :
    (s.writeF r v).mem = s.mem := by
  unfold State.writeF; split; · rfl
  simp

@[simp] theorem State.writeF_text (s : State) (r : Reg) (v : DWord) :
    (s.writeF r v).text = s.text := by
  unfold State.writeF; split; · rfl
  simp

@[simp] theorem State.writeF_heapTop (s : State) (r : Reg) (v : DWord) :
    (s.writeF r v).heapTop = s.heapTop := by
  unfold State.writeF; split; · rfl
  simp

@[simp] theorem State.writeF_recording (s : State) (r : Reg) (v : DWord) :
    (s.writeF r v).recording = s.recording := by
  unfold State.writeF; split; · rfl
  simp

@[simp] theorem State.writeF_cfg (s : State) (r : Reg) (v : DWord) :
    (s.writeF r v).cfg = s.cfg := by
  unfold State.writeF; split; · rfl
  simp

@[simp] theorem State.writeF_inbox (s : State) (r : Reg) (v : DWord) :
    (s.writeF r v).inbox = s.inbox := by
  unfold State.writeF; split; · rfl
  simp

@[simp] theorem State.writeF_draws (s : State) (r : Reg) (v : DWord) :
    (s.writeF r v).draws = s.draws := by
  unfold State.writeF; split; · rfl
  simp

@[simp] theorem State.csrStore_x (s : State) (c : Csr) (v : Word) :
    (s.csrStore c v).x = s.x := by
  unfold State.csrStore; split; · rfl
  simp

@[simp] theorem State.csrStore_pc (s : State) (c : Csr) (v : Word) :
    (s.csrStore c v).pc = s.pc := by
  unfold State.csrStore; split; · rfl
  simp

@[simp] theorem State.csrStore_acc (s : State) (c : Csr) (v : Word) :
    (s.csrStore c v).acc = s.acc := by
  unfold State.csrStore; split; · rfl
  simp

@[simp] theorem State.csrStore_f (s : State) (c : Csr) (v : Word) :
    (s.csrStore c v).f = s.f := by
  unfold State.csrStore; split; · rfl
  simp

@[simp] theorem State.csrStore_ctl (s : State) (c : Csr) (v : Word) :
    (s.csrStore c v).ctl = s.ctl := by
  unfold State.csrStore; split; · rfl
  simp

@[simp] theorem State.csrStore_driver (s : State) (c : Csr) (v : Word) :
    (s.csrStore c v).driver = s.driver := by
  unfold State.csrStore; split; · rfl
  simp

@[simp] theorem State.csrStore_iter (s : State) (c : Csr) (v : Word) :
    (s.csrStore c v).iter = s.iter := by
  unfold State.csrStore; split; · rfl
  simp

@[simp] theorem State.csrStore_steps (s : State) (c : Csr) (v : Word) :
    (s.csrStore c v).steps = s.steps := by
  unfold State.csrStore; split; · rfl
  simp

@[simp] theorem State.csrStore_cycles (s : State) (c : Csr) (v : Word) :
    (s.csrStore c v).cycles = s.cycles := by
  unfold State.csrStore; split; · rfl
  simp

@[simp] theorem State.csrStore_instret (s : State) (c : Csr) (v : Word) :
    (s.csrStore c v).instret = s.instret := by
  unfold State.csrStore; split; · rfl
  simp

@[simp] theorem State.csrStore_seq (s : State) (c : Csr) (v : Word) :
    (s.csrStore c v).seq = s.seq := by
  unfold State.csrStore; split; · rfl
  simp

@[simp] theorem State.csrStore_stopRequested (s : State) (c : Csr) (v : Word) :
    (s.csrStore c v).stopRequested = s.stopRequested := by
  unfold State.csrStore; split; · rfl
  simp

@[simp] theorem State.csrStore_mem (s : State) (c : Csr) (v : Word) :
    (s.csrStore c v).mem = s.mem := by
  unfold State.csrStore; split; · rfl
  simp

@[simp] theorem State.csrStore_text (s : State) (c : Csr) (v : Word) :
    (s.csrStore c v).text = s.text := by
  unfold State.csrStore; split; · rfl
  simp

@[simp] theorem State.csrStore_heapTop (s : State) (c : Csr) (v : Word) :
    (s.csrStore c v).heapTop = s.heapTop := by
  unfold State.csrStore; split; · rfl
  simp

@[simp] theorem State.csrStore_recording (s : State) (c : Csr) (v : Word) :
    (s.csrStore c v).recording = s.recording := by
  unfold State.csrStore; split; · rfl
  simp

@[simp] theorem State.csrStore_cfg (s : State) (c : Csr) (v : Word) :
    (s.csrStore c v).cfg = s.cfg := by
  unfold State.csrStore; split; · rfl
  simp

@[simp] theorem State.csrStore_inbox (s : State) (c : Csr) (v : Word) :
    (s.csrStore c v).inbox = s.inbox := by
  unfold State.csrStore; split; · rfl
  simp

@[simp] theorem State.csrStore_draws (s : State) (c : Csr) (v : Word) :
    (s.csrStore c v).draws = s.draws := by
  unfold State.csrStore; split; · rfl
  simp

@[simp] theorem State.csrWrite_x (s : State) (c : Csr) (v : Word) :
    (s.csrWrite c v).x = s.x := by
  unfold State.csrWrite; split <;> simp

@[simp] theorem State.csrWrite_pc (s : State) (c : Csr) (v : Word) :
    (s.csrWrite c v).pc = s.pc := by
  unfold State.csrWrite; split <;> simp

@[simp] theorem State.csrWrite_acc (s : State) (c : Csr) (v : Word) :
    (s.csrWrite c v).acc = s.acc := by
  unfold State.csrWrite; split <;> simp

@[simp] theorem State.csrWrite_f (s : State) (c : Csr) (v : Word) :
    (s.csrWrite c v).f = s.f := by
  unfold State.csrWrite; split <;> simp

@[simp] theorem State.csrWrite_ctl (s : State) (c : Csr) (v : Word) :
    (s.csrWrite c v).ctl = s.ctl := by
  unfold State.csrWrite; split <;> simp

@[simp] theorem State.csrWrite_driver (s : State) (c : Csr) (v : Word) :
    (s.csrWrite c v).driver = s.driver := by
  unfold State.csrWrite; split <;> simp

@[simp] theorem State.csrWrite_iter (s : State) (c : Csr) (v : Word) :
    (s.csrWrite c v).iter = s.iter := by
  unfold State.csrWrite; split <;> simp

@[simp] theorem State.csrWrite_steps (s : State) (c : Csr) (v : Word) :
    (s.csrWrite c v).steps = s.steps := by
  unfold State.csrWrite; split <;> simp

@[simp] theorem State.csrWrite_cycles (s : State) (c : Csr) (v : Word) :
    (s.csrWrite c v).cycles = s.cycles := by
  unfold State.csrWrite; split <;> simp

@[simp] theorem State.csrWrite_instret (s : State) (c : Csr) (v : Word) :
    (s.csrWrite c v).instret = s.instret := by
  unfold State.csrWrite; split <;> simp

@[simp] theorem State.csrWrite_seq (s : State) (c : Csr) (v : Word) :
    (s.csrWrite c v).seq = s.seq := by
  unfold State.csrWrite; split <;> simp

@[simp] theorem State.csrWrite_stopRequested (s : State) (c : Csr) (v : Word) :
    (s.csrWrite c v).stopRequested = s.stopRequested := by
  unfold State.csrWrite; split <;> simp

@[simp] theorem State.csrWrite_mem (s : State) (c : Csr) (v : Word) :
    (s.csrWrite c v).mem = s.mem := by
  unfold State.csrWrite; split <;> simp

@[simp] theorem State.csrWrite_text (s : State) (c : Csr) (v : Word) :
    (s.csrWrite c v).text = s.text := by
  unfold State.csrWrite; split <;> simp

@[simp] theorem State.csrWrite_heapTop (s : State) (c : Csr) (v : Word) :
    (s.csrWrite c v).heapTop = s.heapTop := by
  unfold State.csrWrite; split <;> simp

@[simp] theorem State.csrWrite_recording (s : State) (c : Csr) (v : Word) :
    (s.csrWrite c v).recording = s.recording := by
  unfold State.csrWrite; split <;> simp

@[simp] theorem State.csrWrite_cfg (s : State) (c : Csr) (v : Word) :
    (s.csrWrite c v).cfg = s.cfg := by
  unfold State.csrWrite; split <;> simp

@[simp] theorem State.csrWrite_inbox (s : State) (c : Csr) (v : Word) :
    (s.csrWrite c v).inbox = s.inbox := by
  unfold State.csrWrite; split <;> simp

@[simp] theorem State.csrWrite_draws (s : State) (c : Csr) (v : Word) :
    (s.csrWrite c v).draws = s.draws := by
  unfold State.csrWrite; split <;> simp

@[simp] theorem State.csrBackdoor_x (s : State) (c : Csr) (v : Word) :
    (s.csrBackdoor c v).x = s.x := by
  rfl

@[simp] theorem State.csrBackdoor_pc (s : State) (c : Csr) (v : Word) :
    (s.csrBackdoor c v).pc = s.pc := by
  rfl

@[simp] theorem State.csrBackdoor_acc (s : State) (c : Csr) (v : Word) :
    (s.csrBackdoor c v).acc = s.acc := by
  rfl

@[simp] theorem State.csrBackdoor_f (s : State) (c : Csr) (v : Word) :
    (s.csrBackdoor c v).f = s.f := by
  rfl

@[simp] theorem State.csrBackdoor_ctl (s : State) (c : Csr) (v : Word) :
    (s.csrBackdoor c v).ctl = s.ctl := by
  rfl

@[simp] theorem State.csrBackdoor_driver (s : State) (c : Csr) (v : Word) :
    (s.csrBackdoor c v).driver = s.driver := by
  rfl

@[simp] theorem State.csrBackdoor_iter (s : State) (c : Csr) (v : Word) :
    (s.csrBackdoor c v).iter = s.iter := by
  rfl

@[simp] theorem State.csrBackdoor_steps (s : State) (c : Csr) (v : Word) :
    (s.csrBackdoor c v).steps = s.steps := by
  rfl

@[simp] theorem State.csrBackdoor_cycles (s : State) (c : Csr) (v : Word) :
    (s.csrBackdoor c v).cycles = s.cycles := by
  rfl

@[simp] theorem State.csrBackdoor_instret (s : State) (c : Csr) (v : Word) :
    (s.csrBackdoor c v).instret = s.instret := by
  rfl

@[simp] theorem State.csrBackdoor_seq (s : State) (c : Csr) (v : Word) :
    (s.csrBackdoor c v).seq = s.seq := by
  rfl

@[simp] theorem State.csrBackdoor_stopRequested (s : State) (c : Csr) (v : Word) :
    (s.csrBackdoor c v).stopRequested = s.stopRequested := by
  rfl

@[simp] theorem State.csrBackdoor_mem (s : State) (c : Csr) (v : Word) :
    (s.csrBackdoor c v).mem = s.mem := by
  rfl

@[simp] theorem State.csrBackdoor_text (s : State) (c : Csr) (v : Word) :
    (s.csrBackdoor c v).text = s.text := by
  rfl

@[simp] theorem State.csrBackdoor_heapTop (s : State) (c : Csr) (v : Word) :
    (s.csrBackdoor c v).heapTop = s.heapTop := by
  rfl

@[simp] theorem State.csrBackdoor_ring (s : State) (c : Csr) (v : Word) :
    (s.csrBackdoor c v).ring = s.ring := by
  rfl

@[simp] theorem State.csrBackdoor_recording (s : State) (c : Csr) (v : Word) :
    (s.csrBackdoor c v).recording = s.recording := by
  rfl

@[simp] theorem State.csrBackdoor_cfg (s : State) (c : Csr) (v : Word) :
    (s.csrBackdoor c v).cfg = s.cfg := by
  rfl

@[simp] theorem State.csrBackdoor_inbox (s : State) (c : Csr) (v : Word) :
    (s.csrBackdoor c v).inbox = s.inbox := by
  rfl

@[simp] theorem State.csrBackdoor_outputs (s : State) (c : Csr) (v : Word) :
    (s.csrBackdoor c v).outputs = s.outputs := by
  rfl

@[simp] theorem State.csrBackdoor_draws (s : State) (c : Csr) (v : Word) :
    (s.csrBackdoor c v).draws = s.draws := by
  rfl

@[simp] theorem State.showCounts_x (s : State) :
    s.showCounts.x = s.x := by
  simp [State.showCounts]

@[simp] theorem State.showCounts_pc (s : State) :
    s.showCounts.pc = s.pc := by
  simp [State.showCounts]

@[simp] theorem State.showCounts_acc (s : State) :
    s.showCounts.acc = s.acc := by
  simp [State.showCounts]

@[simp] theorem State.showCounts_f (s : State) :
    s.showCounts.f = s.f := by
  simp [State.showCounts]

@[simp] theorem State.showCounts_ctl (s : State) :
    s.showCounts.ctl = s.ctl := by
  simp [State.showCounts]

@[simp] theorem State.showCounts_driver (s : State) :
    s.showCounts.driver = s.driver := by
  simp [State.showCounts]

@[simp] theorem State.showCounts_iter (s : State) :
    s.showCounts.iter = s.iter := by
  simp [State.showCounts]

@[simp] theorem State.showCounts_steps (s : State) :
    s.showCounts.steps = s.steps := by
  simp [State.showCounts]

@[simp] theorem State.showCounts_cycles (s : State) :
    s.showCounts.cycles = s.cycles := by
  simp [State.showCounts]

@[simp] theorem State.showCounts_instret (s : State) :
    s.showCounts.instret = s.instret := by
  simp [State.showCounts]

@[simp] theorem State.showCounts_seq (s : State) :
    s.showCounts.seq = s.seq := by
  simp [State.showCounts]

@[simp] theorem State.showCounts_stopRequested (s : State) :
    s.showCounts.stopRequested = s.stopRequested := by
  simp [State.showCounts]

@[simp] theorem State.showCounts_mem (s : State) :
    s.showCounts.mem = s.mem := by
  simp [State.showCounts]

@[simp] theorem State.showCounts_text (s : State) :
    s.showCounts.text = s.text := by
  simp [State.showCounts]

@[simp] theorem State.showCounts_heapTop (s : State) :
    s.showCounts.heapTop = s.heapTop := by
  simp [State.showCounts]

@[simp] theorem State.showCounts_ring (s : State) :
    s.showCounts.ring = s.ring := by
  simp [State.showCounts]

@[simp] theorem State.showCounts_recording (s : State) :
    s.showCounts.recording = s.recording := by
  simp [State.showCounts]

@[simp] theorem State.showCounts_cfg (s : State) :
    s.showCounts.cfg = s.cfg := by
  simp [State.showCounts]

@[simp] theorem State.showCounts_inbox (s : State) :
    s.showCounts.inbox = s.inbox := by
  simp [State.showCounts]

@[simp] theorem State.showCounts_outputs (s : State) :
    s.showCounts.outputs = s.outputs := by
  simp [State.showCounts]

@[simp] theorem State.showCounts_draws (s : State) :
    s.showCounts.draws = s.draws := by
  simp [State.showCounts]

/-! ### Memory -/

@[simp] theorem State.setByte_x (s : State) (a : Word) (b : Byte) :
    (s.setByte a b).x = s.x := by
  unfold State.setByte; split <;> rfl

@[simp] theorem State.setByte_pc (s : State) (a : Word) (b : Byte) :
    (s.setByte a b).pc = s.pc := by
  unfold State.setByte; split <;> rfl

@[simp] theorem State.setByte_acc (s : State) (a : Word) (b : Byte) :
    (s.setByte a b).acc = s.acc := by
  unfold State.setByte; split <;> rfl

@[simp] theorem State.setByte_f (s : State) (a : Word) (b : Byte) :
    (s.setByte a b).f = s.f := by
  unfold State.setByte; split <;> rfl

@[simp] theorem State.setByte_csr (s : State) (a : Word) (b : Byte) :
    (s.setByte a b).csr = s.csr := by
  unfold State.setByte; split <;> rfl

@[simp] theorem State.setByte_ctl (s : State) (a : Word) (b : Byte) :
    (s.setByte a b).ctl = s.ctl := by
  unfold State.setByte; split <;> rfl

@[simp] theorem State.setByte_driver (s : State) (a : Word) (b : Byte) :
    (s.setByte a b).driver = s.driver := by
  unfold State.setByte; split <;> rfl

@[simp] theorem State.setByte_iter (s : State) (a : Word) (b : Byte) :
    (s.setByte a b).iter = s.iter := by
  unfold State.setByte; split <;> rfl

@[simp] theorem State.setByte_steps (s : State) (a : Word) (b : Byte) :
    (s.setByte a b).steps = s.steps := by
  unfold State.setByte; split <;> rfl

@[simp] theorem State.setByte_cycles (s : State) (a : Word) (b : Byte) :
    (s.setByte a b).cycles = s.cycles := by
  unfold State.setByte; split <;> rfl

@[simp] theorem State.setByte_instret (s : State) (a : Word) (b : Byte) :
    (s.setByte a b).instret = s.instret := by
  unfold State.setByte; split <;> rfl

@[simp] theorem State.setByte_seq (s : State) (a : Word) (b : Byte) :
    (s.setByte a b).seq = s.seq := by
  unfold State.setByte; split <;> rfl

@[simp] theorem State.setByte_stopRequested (s : State) (a : Word) (b : Byte) :
    (s.setByte a b).stopRequested = s.stopRequested := by
  unfold State.setByte; split <;> rfl

@[simp] theorem State.setByte_heapTop (s : State) (a : Word) (b : Byte) :
    (s.setByte a b).heapTop = s.heapTop := by
  unfold State.setByte; split <;> rfl

@[simp] theorem State.setByte_ring (s : State) (a : Word) (b : Byte) :
    (s.setByte a b).ring = s.ring := by
  unfold State.setByte; split <;> rfl

@[simp] theorem State.setByte_recording (s : State) (a : Word) (b : Byte) :
    (s.setByte a b).recording = s.recording := by
  unfold State.setByte; split <;> rfl

@[simp] theorem State.setByte_cfg (s : State) (a : Word) (b : Byte) :
    (s.setByte a b).cfg = s.cfg := by
  unfold State.setByte; split <;> rfl

@[simp] theorem State.setByte_inbox (s : State) (a : Word) (b : Byte) :
    (s.setByte a b).inbox = s.inbox := by
  unfold State.setByte; split <;> rfl

@[simp] theorem State.setByte_outputs (s : State) (a : Word) (b : Byte) :
    (s.setByte a b).outputs = s.outputs := by
  unfold State.setByte; split <;> rfl

@[simp] theorem State.setByte_draws (s : State) (a : Word) (b : Byte) :
    (s.setByte a b).draws = s.draws := by
  unfold State.setByte; split <;> rfl

@[simp] theorem State.setBytes_x (s : State) (a v : Word) (n : Nat) :
    (s.setBytes a v n).x = s.x := by
  induction n with
  | zero => rfl
  | succ n ih => simp [State.setBytes, ih]

@[simp] theorem State.setBytes_pc (s : State) (a v : Word) (n : Nat) :
    (s.setBytes a v n).pc = s.pc := by
  induction n with
  | zero => rfl
  | succ n ih => simp [State.setBytes, ih]

@[simp] theorem State.setBytes_acc (s : State) (a v : Word) (n : Nat) :
    (s.setBytes a v n).acc = s.acc := by
  induction n with
  | zero => rfl
  | succ n ih => simp [State.setBytes, ih]

@[simp] theorem State.setBytes_f (s : State) (a v : Word) (n : Nat) :
    (s.setBytes a v n).f = s.f := by
  induction n with
  | zero => rfl
  | succ n ih => simp [State.setBytes, ih]

@[simp] theorem State.setBytes_csr (s : State) (a v : Word) (n : Nat) :
    (s.setBytes a v n).csr = s.csr := by
  induction n with
  | zero => rfl
  | succ n ih => simp [State.setBytes, ih]

@[simp] theorem State.setBytes_ctl (s : State) (a v : Word) (n : Nat) :
    (s.setBytes a v n).ctl = s.ctl := by
  induction n with
  | zero => rfl
  | succ n ih => simp [State.setBytes, ih]

@[simp] theorem State.setBytes_driver (s : State) (a v : Word) (n : Nat) :
    (s.setBytes a v n).driver = s.driver := by
  induction n with
  | zero => rfl
  | succ n ih => simp [State.setBytes, ih]

@[simp] theorem State.setBytes_iter (s : State) (a v : Word) (n : Nat) :
    (s.setBytes a v n).iter = s.iter := by
  induction n with
  | zero => rfl
  | succ n ih => simp [State.setBytes, ih]

@[simp] theorem State.setBytes_steps (s : State) (a v : Word) (n : Nat) :
    (s.setBytes a v n).steps = s.steps := by
  induction n with
  | zero => rfl
  | succ n ih => simp [State.setBytes, ih]

@[simp] theorem State.setBytes_cycles (s : State) (a v : Word) (n : Nat) :
    (s.setBytes a v n).cycles = s.cycles := by
  induction n with
  | zero => rfl
  | succ n ih => simp [State.setBytes, ih]

@[simp] theorem State.setBytes_instret (s : State) (a v : Word) (n : Nat) :
    (s.setBytes a v n).instret = s.instret := by
  induction n with
  | zero => rfl
  | succ n ih => simp [State.setBytes, ih]

@[simp] theorem State.setBytes_seq (s : State) (a v : Word) (n : Nat) :
    (s.setBytes a v n).seq = s.seq := by
  induction n with
  | zero => rfl
  | succ n ih => simp [State.setBytes, ih]

@[simp] theorem State.setBytes_stopRequested (s : State) (a v : Word) (n : Nat) :
    (s.setBytes a v n).stopRequested = s.stopRequested := by
  induction n with
  | zero => rfl
  | succ n ih => simp [State.setBytes, ih]

@[simp] theorem State.setBytes_heapTop (s : State) (a v : Word) (n : Nat) :
    (s.setBytes a v n).heapTop = s.heapTop := by
  induction n with
  | zero => rfl
  | succ n ih => simp [State.setBytes, ih]

@[simp] theorem State.setBytes_ring (s : State) (a v : Word) (n : Nat) :
    (s.setBytes a v n).ring = s.ring := by
  induction n with
  | zero => rfl
  | succ n ih => simp [State.setBytes, ih]

@[simp] theorem State.setBytes_recording (s : State) (a v : Word) (n : Nat) :
    (s.setBytes a v n).recording = s.recording := by
  induction n with
  | zero => rfl
  | succ n ih => simp [State.setBytes, ih]

@[simp] theorem State.setBytes_cfg (s : State) (a v : Word) (n : Nat) :
    (s.setBytes a v n).cfg = s.cfg := by
  induction n with
  | zero => rfl
  | succ n ih => simp [State.setBytes, ih]

@[simp] theorem State.setBytes_inbox (s : State) (a v : Word) (n : Nat) :
    (s.setBytes a v n).inbox = s.inbox := by
  induction n with
  | zero => rfl
  | succ n ih => simp [State.setBytes, ih]

@[simp] theorem State.setBytes_outputs (s : State) (a v : Word) (n : Nat) :
    (s.setBytes a v n).outputs = s.outputs := by
  induction n with
  | zero => rfl
  | succ n ih => simp [State.setBytes, ih]

@[simp] theorem State.setBytes_draws (s : State) (a v : Word) (n : Nat) :
    (s.setBytes a v n).draws = s.draws := by
  induction n with
  | zero => rfl
  | succ n ih => simp [State.setBytes, ih]

@[simp] theorem State.rawWrite_x (s : State) (a : Word) (w : Width) (v : Word) :
    (s.rawWrite a w v).x = s.x := by
  unfold State.rawWrite; split <;> simp

@[simp] theorem State.rawWrite_pc (s : State) (a : Word) (w : Width) (v : Word) :
    (s.rawWrite a w v).pc = s.pc := by
  unfold State.rawWrite; split <;> simp

@[simp] theorem State.rawWrite_acc (s : State) (a : Word) (w : Width) (v : Word) :
    (s.rawWrite a w v).acc = s.acc := by
  unfold State.rawWrite; split <;> simp

@[simp] theorem State.rawWrite_f (s : State) (a : Word) (w : Width) (v : Word) :
    (s.rawWrite a w v).f = s.f := by
  unfold State.rawWrite; split <;> simp

@[simp] theorem State.rawWrite_csr (s : State) (a : Word) (w : Width) (v : Word) :
    (s.rawWrite a w v).csr = s.csr := by
  unfold State.rawWrite; split <;> simp

@[simp] theorem State.rawWrite_ctl (s : State) (a : Word) (w : Width) (v : Word) :
    (s.rawWrite a w v).ctl = s.ctl := by
  unfold State.rawWrite; split <;> simp

@[simp] theorem State.rawWrite_driver (s : State) (a : Word) (w : Width) (v : Word) :
    (s.rawWrite a w v).driver = s.driver := by
  unfold State.rawWrite; split <;> simp

@[simp] theorem State.rawWrite_iter (s : State) (a : Word) (w : Width) (v : Word) :
    (s.rawWrite a w v).iter = s.iter := by
  unfold State.rawWrite; split <;> simp

@[simp] theorem State.rawWrite_steps (s : State) (a : Word) (w : Width) (v : Word) :
    (s.rawWrite a w v).steps = s.steps := by
  unfold State.rawWrite; split <;> simp

@[simp] theorem State.rawWrite_cycles (s : State) (a : Word) (w : Width) (v : Word) :
    (s.rawWrite a w v).cycles = s.cycles := by
  unfold State.rawWrite; split <;> simp

@[simp] theorem State.rawWrite_instret (s : State) (a : Word) (w : Width) (v : Word) :
    (s.rawWrite a w v).instret = s.instret := by
  unfold State.rawWrite; split <;> simp

@[simp] theorem State.rawWrite_seq (s : State) (a : Word) (w : Width) (v : Word) :
    (s.rawWrite a w v).seq = s.seq := by
  unfold State.rawWrite; split <;> simp

@[simp] theorem State.rawWrite_stopRequested (s : State) (a : Word) (w : Width) (v : Word) :
    (s.rawWrite a w v).stopRequested = s.stopRequested := by
  unfold State.rawWrite; split <;> simp

@[simp] theorem State.rawWrite_heapTop (s : State) (a : Word) (w : Width) (v : Word) :
    (s.rawWrite a w v).heapTop = s.heapTop := by
  unfold State.rawWrite; split <;> simp

@[simp] theorem State.rawWrite_recording (s : State) (a : Word) (w : Width) (v : Word) :
    (s.rawWrite a w v).recording = s.recording := by
  unfold State.rawWrite; split <;> simp

@[simp] theorem State.rawWrite_cfg (s : State) (a : Word) (w : Width) (v : Word) :
    (s.rawWrite a w v).cfg = s.cfg := by
  unfold State.rawWrite; split <;> simp

@[simp] theorem State.rawWrite_inbox (s : State) (a : Word) (w : Width) (v : Word) :
    (s.rawWrite a w v).inbox = s.inbox := by
  unfold State.rawWrite; split <;> simp

@[simp] theorem State.rawWrite_draws (s : State) (a : Word) (w : Width) (v : Word) :
    (s.rawWrite a w v).draws = s.draws := by
  unfold State.rawWrite; split <;> simp

@[simp] theorem State.afterRead_x (s : State) (a : Word) :
    (s.afterRead a).x = s.x := by
  unfold State.afterRead; split <;> rfl

@[simp] theorem State.afterRead_pc (s : State) (a : Word) :
    (s.afterRead a).pc = s.pc := by
  unfold State.afterRead; split <;> rfl

@[simp] theorem State.afterRead_acc (s : State) (a : Word) :
    (s.afterRead a).acc = s.acc := by
  unfold State.afterRead; split <;> rfl

@[simp] theorem State.afterRead_f (s : State) (a : Word) :
    (s.afterRead a).f = s.f := by
  unfold State.afterRead; split <;> rfl

@[simp] theorem State.afterRead_csr (s : State) (a : Word) :
    (s.afterRead a).csr = s.csr := by
  unfold State.afterRead; split <;> rfl

@[simp] theorem State.afterRead_ctl (s : State) (a : Word) :
    (s.afterRead a).ctl = s.ctl := by
  unfold State.afterRead; split <;> rfl

@[simp] theorem State.afterRead_driver (s : State) (a : Word) :
    (s.afterRead a).driver = s.driver := by
  unfold State.afterRead; split <;> rfl

@[simp] theorem State.afterRead_iter (s : State) (a : Word) :
    (s.afterRead a).iter = s.iter := by
  unfold State.afterRead; split <;> rfl

@[simp] theorem State.afterRead_steps (s : State) (a : Word) :
    (s.afterRead a).steps = s.steps := by
  unfold State.afterRead; split <;> rfl

@[simp] theorem State.afterRead_cycles (s : State) (a : Word) :
    (s.afterRead a).cycles = s.cycles := by
  unfold State.afterRead; split <;> rfl

@[simp] theorem State.afterRead_instret (s : State) (a : Word) :
    (s.afterRead a).instret = s.instret := by
  unfold State.afterRead; split <;> rfl

@[simp] theorem State.afterRead_seq (s : State) (a : Word) :
    (s.afterRead a).seq = s.seq := by
  unfold State.afterRead; split <;> rfl

@[simp] theorem State.afterRead_stopRequested (s : State) (a : Word) :
    (s.afterRead a).stopRequested = s.stopRequested := by
  unfold State.afterRead; split <;> rfl

@[simp] theorem State.afterRead_mem (s : State) (a : Word) :
    (s.afterRead a).mem = s.mem := by
  unfold State.afterRead; split <;> rfl

@[simp] theorem State.afterRead_text (s : State) (a : Word) :
    (s.afterRead a).text = s.text := by
  unfold State.afterRead; split <;> rfl

@[simp] theorem State.afterRead_heapTop (s : State) (a : Word) :
    (s.afterRead a).heapTop = s.heapTop := by
  unfold State.afterRead; split <;> rfl

@[simp] theorem State.afterRead_ring (s : State) (a : Word) :
    (s.afterRead a).ring = s.ring := by
  unfold State.afterRead; split <;> rfl

@[simp] theorem State.afterRead_recording (s : State) (a : Word) :
    (s.afterRead a).recording = s.recording := by
  unfold State.afterRead; split <;> rfl

@[simp] theorem State.afterRead_cfg (s : State) (a : Word) :
    (s.afterRead a).cfg = s.cfg := by
  unfold State.afterRead; split <;> rfl

@[simp] theorem State.afterRead_inbox (s : State) (a : Word) :
    (s.afterRead a).inbox = s.inbox := by
  unfold State.afterRead; split <;> rfl

@[simp] theorem State.afterRead_outputs (s : State) (a : Word) :
    (s.afterRead a).outputs = s.outputs := by
  unfold State.afterRead; split <;> rfl

/-! ### Traps and the end of a behaviour -/

@[simp] theorem State.stop_x (s : State) (r : StopReason) :
    (s.stop r).x = s.x := by
  rfl

@[simp] theorem State.stop_pc (s : State) (r : StopReason) :
    (s.stop r).pc = s.pc := by
  rfl

@[simp] theorem State.stop_acc (s : State) (r : StopReason) :
    (s.stop r).acc = s.acc := by
  rfl

@[simp] theorem State.stop_f (s : State) (r : StopReason) :
    (s.stop r).f = s.f := by
  rfl

@[simp] theorem State.stop_csr (s : State) (r : StopReason) :
    (s.stop r).csr = s.csr := by
  rfl

@[simp] theorem State.stop_ctl (s : State) (r : StopReason) :
    (s.stop r).ctl = s.ctl := by
  rfl

@[simp] theorem State.stop_iter (s : State) (r : StopReason) :
    (s.stop r).iter = s.iter := by
  rfl

@[simp] theorem State.stop_steps (s : State) (r : StopReason) :
    (s.stop r).steps = s.steps := by
  rfl

@[simp] theorem State.stop_cycles (s : State) (r : StopReason) :
    (s.stop r).cycles = s.cycles := by
  rfl

@[simp] theorem State.stop_instret (s : State) (r : StopReason) :
    (s.stop r).instret = s.instret := by
  rfl

@[simp] theorem State.stop_seq (s : State) (r : StopReason) :
    (s.stop r).seq = s.seq := by
  rfl

@[simp] theorem State.stop_stopRequested (s : State) (r : StopReason) :
    (s.stop r).stopRequested = s.stopRequested := by
  rfl

@[simp] theorem State.stop_mem (s : State) (r : StopReason) :
    (s.stop r).mem = s.mem := by
  rfl

@[simp] theorem State.stop_text (s : State) (r : StopReason) :
    (s.stop r).text = s.text := by
  rfl

@[simp] theorem State.stop_heapTop (s : State) (r : StopReason) :
    (s.stop r).heapTop = s.heapTop := by
  rfl

@[simp] theorem State.stop_ring (s : State) (r : StopReason) :
    (s.stop r).ring = s.ring := by
  rfl

@[simp] theorem State.stop_recording (s : State) (r : StopReason) :
    (s.stop r).recording = s.recording := by
  rfl

@[simp] theorem State.stop_cfg (s : State) (r : StopReason) :
    (s.stop r).cfg = s.cfg := by
  rfl

@[simp] theorem State.stop_inbox (s : State) (r : StopReason) :
    (s.stop r).inbox = s.inbox := by
  rfl

@[simp] theorem State.stop_outputs (s : State) (r : StopReason) :
    (s.stop r).outputs = s.outputs := by
  rfl

@[simp] theorem State.stop_draws (s : State) (r : StopReason) :
    (s.stop r).draws = s.draws := by
  rfl

@[simp] theorem State.writeTrapRecord_x (s : State) (cause epc tval : Word) :
    (s.writeTrapRecord cause epc tval).x = s.x := by
  simp [State.writeTrapRecord]

@[simp] theorem State.writeTrapRecord_pc (s : State) (cause epc tval : Word) :
    (s.writeTrapRecord cause epc tval).pc = s.pc := by
  simp [State.writeTrapRecord]

@[simp] theorem State.writeTrapRecord_acc (s : State) (cause epc tval : Word) :
    (s.writeTrapRecord cause epc tval).acc = s.acc := by
  simp [State.writeTrapRecord]

@[simp] theorem State.writeTrapRecord_f (s : State) (cause epc tval : Word) :
    (s.writeTrapRecord cause epc tval).f = s.f := by
  simp [State.writeTrapRecord]

@[simp] theorem State.writeTrapRecord_ctl (s : State) (cause epc tval : Word) :
    (s.writeTrapRecord cause epc tval).ctl = s.ctl := by
  simp [State.writeTrapRecord]

@[simp] theorem State.writeTrapRecord_driver (s : State) (cause epc tval : Word) :
    (s.writeTrapRecord cause epc tval).driver = s.driver := by
  simp [State.writeTrapRecord]

@[simp] theorem State.writeTrapRecord_iter (s : State) (cause epc tval : Word) :
    (s.writeTrapRecord cause epc tval).iter = s.iter := by
  simp [State.writeTrapRecord]

@[simp] theorem State.writeTrapRecord_steps (s : State) (cause epc tval : Word) :
    (s.writeTrapRecord cause epc tval).steps = s.steps := by
  simp [State.writeTrapRecord]

@[simp] theorem State.writeTrapRecord_cycles (s : State) (cause epc tval : Word) :
    (s.writeTrapRecord cause epc tval).cycles = s.cycles := by
  simp [State.writeTrapRecord]

@[simp] theorem State.writeTrapRecord_instret (s : State) (cause epc tval : Word) :
    (s.writeTrapRecord cause epc tval).instret = s.instret := by
  simp [State.writeTrapRecord]

@[simp] theorem State.writeTrapRecord_seq (s : State) (cause epc tval : Word) :
    (s.writeTrapRecord cause epc tval).seq = s.seq := by
  simp [State.writeTrapRecord]

@[simp] theorem State.writeTrapRecord_stopRequested (s : State) (cause epc tval : Word) :
    (s.writeTrapRecord cause epc tval).stopRequested = s.stopRequested := by
  simp [State.writeTrapRecord]

@[simp] theorem State.writeTrapRecord_mem (s : State) (cause epc tval : Word) :
    (s.writeTrapRecord cause epc tval).mem = s.mem := by
  simp [State.writeTrapRecord]

@[simp] theorem State.writeTrapRecord_text (s : State) (cause epc tval : Word) :
    (s.writeTrapRecord cause epc tval).text = s.text := by
  simp [State.writeTrapRecord]

@[simp] theorem State.writeTrapRecord_heapTop (s : State) (cause epc tval : Word) :
    (s.writeTrapRecord cause epc tval).heapTop = s.heapTop := by
  simp [State.writeTrapRecord]

@[simp] theorem State.writeTrapRecord_recording (s : State) (cause epc tval : Word) :
    (s.writeTrapRecord cause epc tval).recording = s.recording := by
  simp [State.writeTrapRecord]

@[simp] theorem State.writeTrapRecord_cfg (s : State) (cause epc tval : Word) :
    (s.writeTrapRecord cause epc tval).cfg = s.cfg := by
  simp [State.writeTrapRecord]

@[simp] theorem State.writeTrapRecord_inbox (s : State) (cause epc tval : Word) :
    (s.writeTrapRecord cause epc tval).inbox = s.inbox := by
  simp [State.writeTrapRecord]

@[simp] theorem State.writeTrapRecord_draws (s : State) (cause epc tval : Word) :
    (s.writeTrapRecord cause epc tval).draws = s.draws := by
  simp [State.writeTrapRecord]

@[simp] theorem State.stackUie_x (s : State) :
    s.stackUie.x = s.x := by
  simp [State.stackUie]

@[simp] theorem State.stackUie_pc (s : State) :
    s.stackUie.pc = s.pc := by
  simp [State.stackUie]

@[simp] theorem State.stackUie_acc (s : State) :
    s.stackUie.acc = s.acc := by
  simp [State.stackUie]

@[simp] theorem State.stackUie_f (s : State) :
    s.stackUie.f = s.f := by
  simp [State.stackUie]

@[simp] theorem State.stackUie_ctl (s : State) :
    s.stackUie.ctl = s.ctl := by
  simp [State.stackUie]

@[simp] theorem State.stackUie_driver (s : State) :
    s.stackUie.driver = s.driver := by
  simp [State.stackUie]

@[simp] theorem State.stackUie_iter (s : State) :
    s.stackUie.iter = s.iter := by
  simp [State.stackUie]

@[simp] theorem State.stackUie_steps (s : State) :
    s.stackUie.steps = s.steps := by
  simp [State.stackUie]

@[simp] theorem State.stackUie_cycles (s : State) :
    s.stackUie.cycles = s.cycles := by
  simp [State.stackUie]

@[simp] theorem State.stackUie_instret (s : State) :
    s.stackUie.instret = s.instret := by
  simp [State.stackUie]

@[simp] theorem State.stackUie_seq (s : State) :
    s.stackUie.seq = s.seq := by
  simp [State.stackUie]

@[simp] theorem State.stackUie_stopRequested (s : State) :
    s.stackUie.stopRequested = s.stopRequested := by
  simp [State.stackUie]

@[simp] theorem State.stackUie_mem (s : State) :
    s.stackUie.mem = s.mem := by
  simp [State.stackUie]

@[simp] theorem State.stackUie_text (s : State) :
    s.stackUie.text = s.text := by
  simp [State.stackUie]

@[simp] theorem State.stackUie_heapTop (s : State) :
    s.stackUie.heapTop = s.heapTop := by
  simp [State.stackUie]

@[simp] theorem State.stackUie_recording (s : State) :
    s.stackUie.recording = s.recording := by
  simp [State.stackUie]

@[simp] theorem State.stackUie_cfg (s : State) :
    s.stackUie.cfg = s.cfg := by
  simp [State.stackUie]

@[simp] theorem State.stackUie_inbox (s : State) :
    s.stackUie.inbox = s.inbox := by
  simp [State.stackUie]

@[simp] theorem State.stackUie_draws (s : State) :
    s.stackUie.draws = s.draws := by
  simp [State.stackUie]

@[simp] theorem State.trapEntry_x (s : State) (r : SyncRecord) :
    (s.trapEntry r).x = s.x := by
  simp [State.trapEntry]

@[simp] theorem State.trapEntry_acc (s : State) (r : SyncRecord) :
    (s.trapEntry r).acc = s.acc := by
  simp [State.trapEntry]

@[simp] theorem State.trapEntry_f (s : State) (r : SyncRecord) :
    (s.trapEntry r).f = s.f := by
  simp [State.trapEntry]

@[simp] theorem State.trapEntry_ctl (s : State) (r : SyncRecord) :
    (s.trapEntry r).ctl = s.ctl := by
  simp [State.trapEntry]

@[simp] theorem State.trapEntry_driver (s : State) (r : SyncRecord) :
    (s.trapEntry r).driver = s.driver := by
  simp [State.trapEntry]

@[simp] theorem State.trapEntry_iter (s : State) (r : SyncRecord) :
    (s.trapEntry r).iter = s.iter := by
  simp [State.trapEntry]

@[simp] theorem State.trapEntry_steps (s : State) (r : SyncRecord) :
    (s.trapEntry r).steps = s.steps := by
  simp [State.trapEntry]

@[simp] theorem State.trapEntry_cycles (s : State) (r : SyncRecord) :
    (s.trapEntry r).cycles = s.cycles := by
  simp [State.trapEntry]

@[simp] theorem State.trapEntry_instret (s : State) (r : SyncRecord) :
    (s.trapEntry r).instret = s.instret := by
  simp [State.trapEntry]

@[simp] theorem State.trapEntry_seq (s : State) (r : SyncRecord) :
    (s.trapEntry r).seq = s.seq := by
  simp [State.trapEntry]

@[simp] theorem State.trapEntry_stopRequested (s : State) (r : SyncRecord) :
    (s.trapEntry r).stopRequested = s.stopRequested := by
  simp [State.trapEntry]

@[simp] theorem State.trapEntry_mem (s : State) (r : SyncRecord) :
    (s.trapEntry r).mem = s.mem := by
  simp [State.trapEntry]

@[simp] theorem State.trapEntry_text (s : State) (r : SyncRecord) :
    (s.trapEntry r).text = s.text := by
  simp [State.trapEntry]

@[simp] theorem State.trapEntry_heapTop (s : State) (r : SyncRecord) :
    (s.trapEntry r).heapTop = s.heapTop := by
  simp [State.trapEntry]

@[simp] theorem State.trapEntry_recording (s : State) (r : SyncRecord) :
    (s.trapEntry r).recording = s.recording := by
  simp [State.trapEntry]

@[simp] theorem State.trapEntry_cfg (s : State) (r : SyncRecord) :
    (s.trapEntry r).cfg = s.cfg := by
  simp [State.trapEntry]

@[simp] theorem State.trapEntry_inbox (s : State) (r : SyncRecord) :
    (s.trapEntry r).inbox = s.inbox := by
  simp [State.trapEntry]

@[simp] theorem State.trapEntry_draws (s : State) (r : SyncRecord) :
    (s.trapEntry r).draws = s.draws := by
  simp [State.trapEntry]

@[simp] theorem State.unhandledTrap_x (s : State) (r : SyncRecord) :
    (s.unhandledTrap r).x = s.x := by
  simp [State.unhandledTrap]

@[simp] theorem State.unhandledTrap_pc (s : State) (r : SyncRecord) :
    (s.unhandledTrap r).pc = s.pc := by
  simp [State.unhandledTrap]

@[simp] theorem State.unhandledTrap_acc (s : State) (r : SyncRecord) :
    (s.unhandledTrap r).acc = s.acc := by
  simp [State.unhandledTrap]

@[simp] theorem State.unhandledTrap_f (s : State) (r : SyncRecord) :
    (s.unhandledTrap r).f = s.f := by
  simp [State.unhandledTrap]

@[simp] theorem State.unhandledTrap_ctl (s : State) (r : SyncRecord) :
    (s.unhandledTrap r).ctl = s.ctl := by
  simp [State.unhandledTrap]

@[simp] theorem State.unhandledTrap_iter (s : State) (r : SyncRecord) :
    (s.unhandledTrap r).iter = s.iter := by
  simp [State.unhandledTrap]

@[simp] theorem State.unhandledTrap_steps (s : State) (r : SyncRecord) :
    (s.unhandledTrap r).steps = s.steps := by
  simp [State.unhandledTrap]

@[simp] theorem State.unhandledTrap_cycles (s : State) (r : SyncRecord) :
    (s.unhandledTrap r).cycles = s.cycles := by
  simp [State.unhandledTrap]

@[simp] theorem State.unhandledTrap_instret (s : State) (r : SyncRecord) :
    (s.unhandledTrap r).instret = s.instret := by
  simp [State.unhandledTrap]

@[simp] theorem State.unhandledTrap_seq (s : State) (r : SyncRecord) :
    (s.unhandledTrap r).seq = s.seq := by
  simp [State.unhandledTrap]

@[simp] theorem State.unhandledTrap_stopRequested (s : State) (r : SyncRecord) :
    (s.unhandledTrap r).stopRequested = s.stopRequested := by
  simp [State.unhandledTrap]

@[simp] theorem State.unhandledTrap_mem (s : State) (r : SyncRecord) :
    (s.unhandledTrap r).mem = s.mem := by
  simp [State.unhandledTrap]

@[simp] theorem State.unhandledTrap_text (s : State) (r : SyncRecord) :
    (s.unhandledTrap r).text = s.text := by
  simp [State.unhandledTrap]

@[simp] theorem State.unhandledTrap_heapTop (s : State) (r : SyncRecord) :
    (s.unhandledTrap r).heapTop = s.heapTop := by
  simp [State.unhandledTrap]

@[simp] theorem State.unhandledTrap_recording (s : State) (r : SyncRecord) :
    (s.unhandledTrap r).recording = s.recording := by
  simp [State.unhandledTrap]

@[simp] theorem State.unhandledTrap_cfg (s : State) (r : SyncRecord) :
    (s.unhandledTrap r).cfg = s.cfg := by
  simp [State.unhandledTrap]

@[simp] theorem State.unhandledTrap_inbox (s : State) (r : SyncRecord) :
    (s.unhandledTrap r).inbox = s.inbox := by
  simp [State.unhandledTrap]

@[simp] theorem State.unhandledTrap_draws (s : State) (r : SyncRecord) :
    (s.unhandledTrap r).draws = s.draws := by
  simp [State.unhandledTrap]

@[simp] theorem State.deliverSync_x (s : State) (r : SyncRecord) :
    (s.deliverSync r).x = s.x := by
  unfold State.deliverSync; split <;> simp

@[simp] theorem State.deliverSync_acc (s : State) (r : SyncRecord) :
    (s.deliverSync r).acc = s.acc := by
  unfold State.deliverSync; split <;> simp

@[simp] theorem State.deliverSync_f (s : State) (r : SyncRecord) :
    (s.deliverSync r).f = s.f := by
  unfold State.deliverSync; split <;> simp

@[simp] theorem State.deliverSync_ctl (s : State) (r : SyncRecord) :
    (s.deliverSync r).ctl = s.ctl := by
  unfold State.deliverSync; split <;> simp

@[simp] theorem State.deliverSync_iter (s : State) (r : SyncRecord) :
    (s.deliverSync r).iter = s.iter := by
  unfold State.deliverSync; split <;> simp

@[simp] theorem State.deliverSync_steps (s : State) (r : SyncRecord) :
    (s.deliverSync r).steps = s.steps := by
  unfold State.deliverSync; split <;> simp

@[simp] theorem State.deliverSync_cycles (s : State) (r : SyncRecord) :
    (s.deliverSync r).cycles = s.cycles := by
  unfold State.deliverSync; split <;> simp

@[simp] theorem State.deliverSync_instret (s : State) (r : SyncRecord) :
    (s.deliverSync r).instret = s.instret := by
  unfold State.deliverSync; split <;> simp

@[simp] theorem State.deliverSync_seq (s : State) (r : SyncRecord) :
    (s.deliverSync r).seq = s.seq := by
  unfold State.deliverSync; split <;> simp

@[simp] theorem State.deliverSync_stopRequested (s : State) (r : SyncRecord) :
    (s.deliverSync r).stopRequested = s.stopRequested := by
  unfold State.deliverSync; split <;> simp

@[simp] theorem State.deliverSync_mem (s : State) (r : SyncRecord) :
    (s.deliverSync r).mem = s.mem := by
  unfold State.deliverSync; split <;> simp

@[simp] theorem State.deliverSync_text (s : State) (r : SyncRecord) :
    (s.deliverSync r).text = s.text := by
  unfold State.deliverSync; split <;> simp

@[simp] theorem State.deliverSync_heapTop (s : State) (r : SyncRecord) :
    (s.deliverSync r).heapTop = s.heapTop := by
  unfold State.deliverSync; split <;> simp

@[simp] theorem State.deliverSync_recording (s : State) (r : SyncRecord) :
    (s.deliverSync r).recording = s.recording := by
  unfold State.deliverSync; split <;> simp

@[simp] theorem State.deliverSync_cfg (s : State) (r : SyncRecord) :
    (s.deliverSync r).cfg = s.cfg := by
  unfold State.deliverSync; split <;> simp

@[simp] theorem State.deliverSync_inbox (s : State) (r : SyncRecord) :
    (s.deliverSync r).inbox = s.inbox := by
  unfold State.deliverSync; split <;> simp

@[simp] theorem State.deliverSync_draws (s : State) (r : SyncRecord) :
    (s.deliverSync r).draws = s.draws := by
  unfold State.deliverSync; split <;> simp

@[simp] theorem State.interruptEntry_x (s : State) (code p : Word) :
    (s.interruptEntry code p).x = s.x := by
  unfold State.interruptEntry; dsimp only; split <;> simp

@[simp] theorem State.interruptEntry_acc (s : State) (code p : Word) :
    (s.interruptEntry code p).acc = s.acc := by
  unfold State.interruptEntry; dsimp only; split <;> simp

@[simp] theorem State.interruptEntry_f (s : State) (code p : Word) :
    (s.interruptEntry code p).f = s.f := by
  unfold State.interruptEntry; dsimp only; split <;> simp

@[simp] theorem State.interruptEntry_ctl (s : State) (code p : Word) :
    (s.interruptEntry code p).ctl = s.ctl := by
  unfold State.interruptEntry; dsimp only; split <;> simp

@[simp] theorem State.interruptEntry_iter (s : State) (code p : Word) :
    (s.interruptEntry code p).iter = s.iter := by
  unfold State.interruptEntry; dsimp only; split <;> simp

@[simp] theorem State.interruptEntry_steps (s : State) (code p : Word) :
    (s.interruptEntry code p).steps = s.steps := by
  unfold State.interruptEntry; dsimp only; split <;> simp

@[simp] theorem State.interruptEntry_cycles (s : State) (code p : Word) :
    (s.interruptEntry code p).cycles = s.cycles := by
  unfold State.interruptEntry; dsimp only; split <;> simp

@[simp] theorem State.interruptEntry_instret (s : State) (code p : Word) :
    (s.interruptEntry code p).instret = s.instret := by
  unfold State.interruptEntry; dsimp only; split <;> simp

@[simp] theorem State.interruptEntry_seq (s : State) (code p : Word) :
    (s.interruptEntry code p).seq = s.seq := by
  unfold State.interruptEntry; dsimp only; split <;> simp

@[simp] theorem State.interruptEntry_stopRequested (s : State) (code p : Word) :
    (s.interruptEntry code p).stopRequested = s.stopRequested := by
  unfold State.interruptEntry; dsimp only; split <;> simp

@[simp] theorem State.interruptEntry_mem (s : State) (code p : Word) :
    (s.interruptEntry code p).mem = s.mem := by
  unfold State.interruptEntry; dsimp only; split <;> simp

@[simp] theorem State.interruptEntry_text (s : State) (code p : Word) :
    (s.interruptEntry code p).text = s.text := by
  unfold State.interruptEntry; dsimp only; split <;> simp

@[simp] theorem State.interruptEntry_heapTop (s : State) (code p : Word) :
    (s.interruptEntry code p).heapTop = s.heapTop := by
  unfold State.interruptEntry; dsimp only; split <;> simp

@[simp] theorem State.interruptEntry_recording (s : State) (code p : Word) :
    (s.interruptEntry code p).recording = s.recording := by
  unfold State.interruptEntry; dsimp only; split <;> simp

@[simp] theorem State.interruptEntry_cfg (s : State) (code p : Word) :
    (s.interruptEntry code p).cfg = s.cfg := by
  unfold State.interruptEntry; dsimp only; split <;> simp

@[simp] theorem State.interruptEntry_inbox (s : State) (code p : Word) :
    (s.interruptEntry code p).inbox = s.inbox := by
  unfold State.interruptEntry; dsimp only; split <;> simp

@[simp] theorem State.interruptEntry_draws (s : State) (code p : Word) :
    (s.interruptEntry code p).draws = s.draws := by
  unfold State.interruptEntry; dsimp only; split <;> simp

@[simp] theorem State.returnFromTrap_x (s : State) :
    s.returnFromTrap.x = s.x := by
  simp [State.returnFromTrap]

@[simp] theorem State.returnFromTrap_acc (s : State) :
    s.returnFromTrap.acc = s.acc := by
  simp [State.returnFromTrap]

@[simp] theorem State.returnFromTrap_f (s : State) :
    s.returnFromTrap.f = s.f := by
  simp [State.returnFromTrap]

@[simp] theorem State.returnFromTrap_ctl (s : State) :
    s.returnFromTrap.ctl = s.ctl := by
  simp [State.returnFromTrap]

@[simp] theorem State.returnFromTrap_driver (s : State) :
    s.returnFromTrap.driver = s.driver := by
  simp [State.returnFromTrap]

@[simp] theorem State.returnFromTrap_steps (s : State) :
    s.returnFromTrap.steps = s.steps := by
  simp [State.returnFromTrap]

@[simp] theorem State.returnFromTrap_cycles (s : State) :
    s.returnFromTrap.cycles = s.cycles := by
  simp [State.returnFromTrap]

@[simp] theorem State.returnFromTrap_instret (s : State) :
    s.returnFromTrap.instret = s.instret := by
  simp [State.returnFromTrap]

@[simp] theorem State.returnFromTrap_seq (s : State) :
    s.returnFromTrap.seq = s.seq := by
  simp [State.returnFromTrap]

@[simp] theorem State.returnFromTrap_stopRequested (s : State) :
    s.returnFromTrap.stopRequested = s.stopRequested := by
  simp [State.returnFromTrap]

@[simp] theorem State.returnFromTrap_mem (s : State) :
    s.returnFromTrap.mem = s.mem := by
  simp [State.returnFromTrap]

@[simp] theorem State.returnFromTrap_text (s : State) :
    s.returnFromTrap.text = s.text := by
  simp [State.returnFromTrap]

@[simp] theorem State.returnFromTrap_heapTop (s : State) :
    s.returnFromTrap.heapTop = s.heapTop := by
  simp [State.returnFromTrap]

@[simp] theorem State.returnFromTrap_recording (s : State) :
    s.returnFromTrap.recording = s.recording := by
  simp [State.returnFromTrap]

@[simp] theorem State.returnFromTrap_cfg (s : State) :
    s.returnFromTrap.cfg = s.cfg := by
  simp [State.returnFromTrap]

@[simp] theorem State.returnFromTrap_inbox (s : State) :
    s.returnFromTrap.inbox = s.inbox := by
  simp [State.returnFromTrap]

@[simp] theorem State.returnFromTrap_draws (s : State) :
    s.returnFromTrap.draws = s.draws := by
  simp [State.returnFromTrap]

@[simp] theorem State.startIter_x (s : State) :
    s.startIter.x = s.x := by
  rfl

@[simp] theorem State.startIter_pc (s : State) :
    s.startIter.pc = s.pc := by
  rfl

@[simp] theorem State.startIter_acc (s : State) :
    s.startIter.acc = s.acc := by
  rfl

@[simp] theorem State.startIter_f (s : State) :
    s.startIter.f = s.f := by
  rfl

@[simp] theorem State.startIter_csr (s : State) :
    s.startIter.csr = s.csr := by
  rfl

@[simp] theorem State.startIter_ctl (s : State) :
    s.startIter.ctl = s.ctl := by
  rfl

@[simp] theorem State.startIter_driver (s : State) :
    s.startIter.driver = s.driver := by
  rfl

@[simp] theorem State.startIter_steps (s : State) :
    s.startIter.steps = s.steps := by
  rfl

@[simp] theorem State.startIter_cycles (s : State) :
    s.startIter.cycles = s.cycles := by
  rfl

@[simp] theorem State.startIter_instret (s : State) :
    s.startIter.instret = s.instret := by
  rfl

@[simp] theorem State.startIter_seq (s : State) :
    s.startIter.seq = s.seq := by
  rfl

@[simp] theorem State.startIter_stopRequested (s : State) :
    s.startIter.stopRequested = s.stopRequested := by
  rfl

@[simp] theorem State.startIter_mem (s : State) :
    s.startIter.mem = s.mem := by
  rfl

@[simp] theorem State.startIter_text (s : State) :
    s.startIter.text = s.text := by
  rfl

@[simp] theorem State.startIter_heapTop (s : State) :
    s.startIter.heapTop = s.heapTop := by
  rfl

@[simp] theorem State.startIter_ring (s : State) :
    s.startIter.ring = s.ring := by
  rfl

@[simp] theorem State.startIter_recording (s : State) :
    s.startIter.recording = s.recording := by
  rfl

@[simp] theorem State.startIter_cfg (s : State) :
    s.startIter.cfg = s.cfg := by
  rfl

@[simp] theorem State.startIter_inbox (s : State) :
    s.startIter.inbox = s.inbox := by
  rfl

@[simp] theorem State.startIter_outputs (s : State) :
    s.startIter.outputs = s.outputs := by
  rfl

@[simp] theorem State.startIter_draws (s : State) :
    s.startIter.draws = s.draws := by
  rfl

@[simp] theorem State.advance_x (s : State) :
    s.advance.x = s.x := by
  unfold State.advance; split <;> simp

@[simp] theorem State.advance_acc (s : State) :
    s.advance.acc = s.acc := by
  unfold State.advance; split <;> simp

@[simp] theorem State.advance_f (s : State) :
    s.advance.f = s.f := by
  unfold State.advance; split <;> simp

@[simp] theorem State.advance_csr (s : State) :
    s.advance.csr = s.csr := by
  unfold State.advance; split <;> simp

@[simp] theorem State.advance_ctl (s : State) :
    s.advance.ctl = s.ctl := by
  unfold State.advance; split <;> simp

@[simp] theorem State.advance_driver (s : State) :
    s.advance.driver = s.driver := by
  unfold State.advance; split <;> simp

@[simp] theorem State.advance_iter (s : State) :
    s.advance.iter = s.iter := by
  unfold State.advance; split <;> simp

@[simp] theorem State.advance_steps (s : State) :
    s.advance.steps = s.steps := by
  unfold State.advance; split <;> simp

@[simp] theorem State.advance_cycles (s : State) :
    s.advance.cycles = s.cycles := by
  unfold State.advance; split <;> simp

@[simp] theorem State.advance_instret (s : State) :
    s.advance.instret = s.instret := by
  unfold State.advance; split <;> simp

@[simp] theorem State.advance_seq (s : State) :
    s.advance.seq = s.seq := by
  unfold State.advance; split <;> simp

@[simp] theorem State.advance_stopRequested (s : State) :
    s.advance.stopRequested = s.stopRequested := by
  unfold State.advance; split <;> simp

@[simp] theorem State.advance_mem (s : State) :
    s.advance.mem = s.mem := by
  unfold State.advance; split <;> simp

@[simp] theorem State.advance_text (s : State) :
    s.advance.text = s.text := by
  unfold State.advance; split <;> simp

@[simp] theorem State.advance_heapTop (s : State) :
    s.advance.heapTop = s.heapTop := by
  unfold State.advance; split <;> simp

@[simp] theorem State.advance_recording (s : State) :
    s.advance.recording = s.recording := by
  unfold State.advance; split <;> simp

@[simp] theorem State.advance_cfg (s : State) :
    s.advance.cfg = s.cfg := by
  unfold State.advance; split <;> simp

@[simp] theorem State.advance_inbox (s : State) :
    s.advance.inbox = s.inbox := by
  unfold State.advance; split <;> simp

@[simp] theorem State.advance_draws (s : State) :
    s.advance.draws = s.draws := by
  unfold State.advance; split <;> simp

/-! ### Floating-point results -/

@[simp] theorem State.writeS_x (s : State) (r : Reg) (v : Word) :
    (s.writeS r v).x = s.x := by
  simp [State.writeS]

@[simp] theorem State.writeS_pc (s : State) (r : Reg) (v : Word) :
    (s.writeS r v).pc = s.pc := by
  simp [State.writeS]

@[simp] theorem State.writeS_acc (s : State) (r : Reg) (v : Word) :
    (s.writeS r v).acc = s.acc := by
  simp [State.writeS]

@[simp] theorem State.writeS_csr (s : State) (r : Reg) (v : Word) :
    (s.writeS r v).csr = s.csr := by
  simp [State.writeS]

@[simp] theorem State.writeS_ctl (s : State) (r : Reg) (v : Word) :
    (s.writeS r v).ctl = s.ctl := by
  simp [State.writeS]

@[simp] theorem State.writeS_driver (s : State) (r : Reg) (v : Word) :
    (s.writeS r v).driver = s.driver := by
  simp [State.writeS]

@[simp] theorem State.writeS_iter (s : State) (r : Reg) (v : Word) :
    (s.writeS r v).iter = s.iter := by
  simp [State.writeS]

@[simp] theorem State.writeS_steps (s : State) (r : Reg) (v : Word) :
    (s.writeS r v).steps = s.steps := by
  simp [State.writeS]

@[simp] theorem State.writeS_cycles (s : State) (r : Reg) (v : Word) :
    (s.writeS r v).cycles = s.cycles := by
  simp [State.writeS]

@[simp] theorem State.writeS_instret (s : State) (r : Reg) (v : Word) :
    (s.writeS r v).instret = s.instret := by
  simp [State.writeS]

@[simp] theorem State.writeS_seq (s : State) (r : Reg) (v : Word) :
    (s.writeS r v).seq = s.seq := by
  simp [State.writeS]

@[simp] theorem State.writeS_stopRequested (s : State) (r : Reg) (v : Word) :
    (s.writeS r v).stopRequested = s.stopRequested := by
  simp [State.writeS]

@[simp] theorem State.writeS_mem (s : State) (r : Reg) (v : Word) :
    (s.writeS r v).mem = s.mem := by
  simp [State.writeS]

@[simp] theorem State.writeS_text (s : State) (r : Reg) (v : Word) :
    (s.writeS r v).text = s.text := by
  simp [State.writeS]

@[simp] theorem State.writeS_heapTop (s : State) (r : Reg) (v : Word) :
    (s.writeS r v).heapTop = s.heapTop := by
  simp [State.writeS]

@[simp] theorem State.writeS_recording (s : State) (r : Reg) (v : Word) :
    (s.writeS r v).recording = s.recording := by
  simp [State.writeS]

@[simp] theorem State.writeS_cfg (s : State) (r : Reg) (v : Word) :
    (s.writeS r v).cfg = s.cfg := by
  simp [State.writeS]

@[simp] theorem State.writeS_inbox (s : State) (r : Reg) (v : Word) :
    (s.writeS r v).inbox = s.inbox := by
  simp [State.writeS]

@[simp] theorem State.writeS_draws (s : State) (r : Reg) (v : Word) :
    (s.writeS r v).draws = s.draws := by
  simp [State.writeS]

@[simp] theorem State.accrue_x (s : State) (fl : Fflags) :
    (s.accrue fl).x = s.x := by
  unfold State.accrue; split <;> simp

@[simp] theorem State.accrue_pc (s : State) (fl : Fflags) :
    (s.accrue fl).pc = s.pc := by
  unfold State.accrue; split <;> simp

@[simp] theorem State.accrue_acc (s : State) (fl : Fflags) :
    (s.accrue fl).acc = s.acc := by
  unfold State.accrue; split <;> simp

@[simp] theorem State.accrue_f (s : State) (fl : Fflags) :
    (s.accrue fl).f = s.f := by
  unfold State.accrue; split <;> simp

@[simp] theorem State.accrue_ctl (s : State) (fl : Fflags) :
    (s.accrue fl).ctl = s.ctl := by
  unfold State.accrue; split <;> simp

@[simp] theorem State.accrue_driver (s : State) (fl : Fflags) :
    (s.accrue fl).driver = s.driver := by
  unfold State.accrue; split <;> simp

@[simp] theorem State.accrue_iter (s : State) (fl : Fflags) :
    (s.accrue fl).iter = s.iter := by
  unfold State.accrue; split <;> simp

@[simp] theorem State.accrue_steps (s : State) (fl : Fflags) :
    (s.accrue fl).steps = s.steps := by
  unfold State.accrue; split <;> simp

@[simp] theorem State.accrue_cycles (s : State) (fl : Fflags) :
    (s.accrue fl).cycles = s.cycles := by
  unfold State.accrue; split <;> simp

@[simp] theorem State.accrue_instret (s : State) (fl : Fflags) :
    (s.accrue fl).instret = s.instret := by
  unfold State.accrue; split <;> simp

@[simp] theorem State.accrue_seq (s : State) (fl : Fflags) :
    (s.accrue fl).seq = s.seq := by
  unfold State.accrue; split <;> simp

@[simp] theorem State.accrue_stopRequested (s : State) (fl : Fflags) :
    (s.accrue fl).stopRequested = s.stopRequested := by
  unfold State.accrue; split <;> simp

@[simp] theorem State.accrue_mem (s : State) (fl : Fflags) :
    (s.accrue fl).mem = s.mem := by
  unfold State.accrue; split <;> simp

@[simp] theorem State.accrue_text (s : State) (fl : Fflags) :
    (s.accrue fl).text = s.text := by
  unfold State.accrue; split <;> simp

@[simp] theorem State.accrue_heapTop (s : State) (fl : Fflags) :
    (s.accrue fl).heapTop = s.heapTop := by
  unfold State.accrue; split <;> simp

@[simp] theorem State.accrue_recording (s : State) (fl : Fflags) :
    (s.accrue fl).recording = s.recording := by
  unfold State.accrue; split <;> simp

@[simp] theorem State.accrue_cfg (s : State) (fl : Fflags) :
    (s.accrue fl).cfg = s.cfg := by
  unfold State.accrue; split <;> simp

@[simp] theorem State.accrue_inbox (s : State) (fl : Fflags) :
    (s.accrue fl).inbox = s.inbox := by
  unfold State.accrue; split <;> simp

@[simp] theorem State.accrue_draws (s : State) (fl : Fflags) :
    (s.accrue fl).draws = s.draws := by
  unfold State.accrue; split <;> simp

@[simp] theorem State.retireS_x (s : State) (r : Reg) (res : Word × Fflags) :
    (s.retireS r res).x = s.x := by
  simp [State.retireS]

@[simp] theorem State.retireS_pc (s : State) (r : Reg) (res : Word × Fflags) :
    (s.retireS r res).pc = s.pc := by
  simp [State.retireS]

@[simp] theorem State.retireS_acc (s : State) (r : Reg) (res : Word × Fflags) :
    (s.retireS r res).acc = s.acc := by
  simp [State.retireS]

@[simp] theorem State.retireS_ctl (s : State) (r : Reg) (res : Word × Fflags) :
    (s.retireS r res).ctl = s.ctl := by
  simp [State.retireS]

@[simp] theorem State.retireS_driver (s : State) (r : Reg) (res : Word × Fflags) :
    (s.retireS r res).driver = s.driver := by
  simp [State.retireS]

@[simp] theorem State.retireS_iter (s : State) (r : Reg) (res : Word × Fflags) :
    (s.retireS r res).iter = s.iter := by
  simp [State.retireS]

@[simp] theorem State.retireS_steps (s : State) (r : Reg) (res : Word × Fflags) :
    (s.retireS r res).steps = s.steps := by
  simp [State.retireS]

@[simp] theorem State.retireS_cycles (s : State) (r : Reg) (res : Word × Fflags) :
    (s.retireS r res).cycles = s.cycles := by
  simp [State.retireS]

@[simp] theorem State.retireS_instret (s : State) (r : Reg) (res : Word × Fflags) :
    (s.retireS r res).instret = s.instret := by
  simp [State.retireS]

@[simp] theorem State.retireS_seq (s : State) (r : Reg) (res : Word × Fflags) :
    (s.retireS r res).seq = s.seq := by
  simp [State.retireS]

@[simp] theorem State.retireS_stopRequested (s : State) (r : Reg) (res : Word × Fflags) :
    (s.retireS r res).stopRequested = s.stopRequested := by
  simp [State.retireS]

@[simp] theorem State.retireS_mem (s : State) (r : Reg) (res : Word × Fflags) :
    (s.retireS r res).mem = s.mem := by
  simp [State.retireS]

@[simp] theorem State.retireS_text (s : State) (r : Reg) (res : Word × Fflags) :
    (s.retireS r res).text = s.text := by
  simp [State.retireS]

@[simp] theorem State.retireS_heapTop (s : State) (r : Reg) (res : Word × Fflags) :
    (s.retireS r res).heapTop = s.heapTop := by
  simp [State.retireS]

@[simp] theorem State.retireS_recording (s : State) (r : Reg) (res : Word × Fflags) :
    (s.retireS r res).recording = s.recording := by
  simp [State.retireS]

@[simp] theorem State.retireS_cfg (s : State) (r : Reg) (res : Word × Fflags) :
    (s.retireS r res).cfg = s.cfg := by
  simp [State.retireS]

@[simp] theorem State.retireS_inbox (s : State) (r : Reg) (res : Word × Fflags) :
    (s.retireS r res).inbox = s.inbox := by
  simp [State.retireS]

@[simp] theorem State.retireS_draws (s : State) (r : Reg) (res : Word × Fflags) :
    (s.retireS r res).draws = s.draws := by
  simp [State.retireS]

@[simp] theorem State.retireD_x (s : State) (r : Reg) (res : DWord × Fflags) :
    (s.retireD r res).x = s.x := by
  simp [State.retireD]

@[simp] theorem State.retireD_pc (s : State) (r : Reg) (res : DWord × Fflags) :
    (s.retireD r res).pc = s.pc := by
  simp [State.retireD]

@[simp] theorem State.retireD_acc (s : State) (r : Reg) (res : DWord × Fflags) :
    (s.retireD r res).acc = s.acc := by
  simp [State.retireD]

@[simp] theorem State.retireD_ctl (s : State) (r : Reg) (res : DWord × Fflags) :
    (s.retireD r res).ctl = s.ctl := by
  simp [State.retireD]

@[simp] theorem State.retireD_driver (s : State) (r : Reg) (res : DWord × Fflags) :
    (s.retireD r res).driver = s.driver := by
  simp [State.retireD]

@[simp] theorem State.retireD_iter (s : State) (r : Reg) (res : DWord × Fflags) :
    (s.retireD r res).iter = s.iter := by
  simp [State.retireD]

@[simp] theorem State.retireD_steps (s : State) (r : Reg) (res : DWord × Fflags) :
    (s.retireD r res).steps = s.steps := by
  simp [State.retireD]

@[simp] theorem State.retireD_cycles (s : State) (r : Reg) (res : DWord × Fflags) :
    (s.retireD r res).cycles = s.cycles := by
  simp [State.retireD]

@[simp] theorem State.retireD_instret (s : State) (r : Reg) (res : DWord × Fflags) :
    (s.retireD r res).instret = s.instret := by
  simp [State.retireD]

@[simp] theorem State.retireD_seq (s : State) (r : Reg) (res : DWord × Fflags) :
    (s.retireD r res).seq = s.seq := by
  simp [State.retireD]

@[simp] theorem State.retireD_stopRequested (s : State) (r : Reg) (res : DWord × Fflags) :
    (s.retireD r res).stopRequested = s.stopRequested := by
  simp [State.retireD]

@[simp] theorem State.retireD_mem (s : State) (r : Reg) (res : DWord × Fflags) :
    (s.retireD r res).mem = s.mem := by
  simp [State.retireD]

@[simp] theorem State.retireD_text (s : State) (r : Reg) (res : DWord × Fflags) :
    (s.retireD r res).text = s.text := by
  simp [State.retireD]

@[simp] theorem State.retireD_heapTop (s : State) (r : Reg) (res : DWord × Fflags) :
    (s.retireD r res).heapTop = s.heapTop := by
  simp [State.retireD]

@[simp] theorem State.retireD_recording (s : State) (r : Reg) (res : DWord × Fflags) :
    (s.retireD r res).recording = s.recording := by
  simp [State.retireD]

@[simp] theorem State.retireD_cfg (s : State) (r : Reg) (res : DWord × Fflags) :
    (s.retireD r res).cfg = s.cfg := by
  simp [State.retireD]

@[simp] theorem State.retireD_inbox (s : State) (r : Reg) (res : DWord × Fflags) :
    (s.retireD r res).inbox = s.inbox := by
  simp [State.retireD]

@[simp] theorem State.retireD_draws (s : State) (r : Reg) (res : DWord × Fflags) :
    (s.retireD r res).draws = s.draws := by
  simp [State.retireD]

@[simp] theorem State.retireX_pc (s : State) (r : Reg) (res : Word × Fflags) :
    (s.retireX r res).pc = s.pc := by
  simp [State.retireX]

@[simp] theorem State.retireX_acc (s : State) (r : Reg) (res : Word × Fflags) :
    (s.retireX r res).acc = s.acc := by
  simp [State.retireX]

@[simp] theorem State.retireX_f (s : State) (r : Reg) (res : Word × Fflags) :
    (s.retireX r res).f = s.f := by
  simp [State.retireX]

@[simp] theorem State.retireX_ctl (s : State) (r : Reg) (res : Word × Fflags) :
    (s.retireX r res).ctl = s.ctl := by
  simp [State.retireX]

@[simp] theorem State.retireX_driver (s : State) (r : Reg) (res : Word × Fflags) :
    (s.retireX r res).driver = s.driver := by
  simp [State.retireX]

@[simp] theorem State.retireX_iter (s : State) (r : Reg) (res : Word × Fflags) :
    (s.retireX r res).iter = s.iter := by
  simp [State.retireX]

@[simp] theorem State.retireX_steps (s : State) (r : Reg) (res : Word × Fflags) :
    (s.retireX r res).steps = s.steps := by
  simp [State.retireX]

@[simp] theorem State.retireX_cycles (s : State) (r : Reg) (res : Word × Fflags) :
    (s.retireX r res).cycles = s.cycles := by
  simp [State.retireX]

@[simp] theorem State.retireX_instret (s : State) (r : Reg) (res : Word × Fflags) :
    (s.retireX r res).instret = s.instret := by
  simp [State.retireX]

@[simp] theorem State.retireX_seq (s : State) (r : Reg) (res : Word × Fflags) :
    (s.retireX r res).seq = s.seq := by
  simp [State.retireX]

@[simp] theorem State.retireX_stopRequested (s : State) (r : Reg) (res : Word × Fflags) :
    (s.retireX r res).stopRequested = s.stopRequested := by
  simp [State.retireX]

@[simp] theorem State.retireX_mem (s : State) (r : Reg) (res : Word × Fflags) :
    (s.retireX r res).mem = s.mem := by
  simp [State.retireX]

@[simp] theorem State.retireX_text (s : State) (r : Reg) (res : Word × Fflags) :
    (s.retireX r res).text = s.text := by
  simp [State.retireX]

@[simp] theorem State.retireX_heapTop (s : State) (r : Reg) (res : Word × Fflags) :
    (s.retireX r res).heapTop = s.heapTop := by
  simp [State.retireX]

@[simp] theorem State.retireX_recording (s : State) (r : Reg) (res : Word × Fflags) :
    (s.retireX r res).recording = s.recording := by
  simp [State.retireX]

@[simp] theorem State.retireX_cfg (s : State) (r : Reg) (res : Word × Fflags) :
    (s.retireX r res).cfg = s.cfg := by
  simp [State.retireX]

@[simp] theorem State.retireX_inbox (s : State) (r : Reg) (res : Word × Fflags) :
    (s.retireX r res).inbox = s.inbox := by
  simp [State.retireX]

@[simp] theorem State.retireX_draws (s : State) (r : Reg) (res : Word × Fflags) :
    (s.retireX r res).draws = s.draws := by
  simp [State.retireX]

end Sys2Proof.Machine
end

