-- ==== Sys2Proof/Laws/Memory.lean ====
section
/-! SUPPORT. The laws of the stores: read after write, the canonical form kept by every operation, and equality of
canonical stores that read alike (20_memory.md R155, R156). -/

namespace Sys2Proof.Machine

/-! ### The key of the first entry -/

/-- Every key of a store is above `a`. -/
def keysAbove (a : Nat) (m : List (Nat × β)) : Prop := ∀ c ∈ m, a < c.1

theorem keysRise_cons (a : Nat) (v : β) (m : List (Nat × β)) :
    keysRise ((a, v) :: m) = true ↔ keysAbove a m ∧ keysRise m = true := by
  induction m generalizing a v with
  | nil => simp [keysRise, keysAbove]
  | cons c rest ih =>
    obtain ⟨b, w⟩ := c
    simp only [keysRise, Bool.and_eq_true, decide_eq_true_eq, keysAbove, List.mem_cons, forall_eq_or_imp]
    constructor
    · rintro ⟨h, hr⟩
      refine ⟨⟨h, fun c hc => ?_⟩, hr⟩
      have := ((ih b w).1 hr).1 c hc
      omega
    · rintro ⟨⟨h, -⟩, hr⟩
      exact ⟨h, hr⟩

theorem storeFind_above {m : List (Nat × β)} {a : Nat} (h : keysAbove a m) : storeFind m a = none := by
  induction m with
  | nil => rfl
  | cons c rest ih =>
    obtain ⟨k, v⟩ := c
    have h1 := h (k, v) (by simp)
    have h2 : keysAbove a rest := fun c hc => h c (by simp [hc])
    simp only [storeFind]
    rw [if_neg (by simp at h1; omega), ih h2]

/-! ### Read after write -/

theorem storeFind_put (m : List (Nat × β)) (a b : Nat) (v : β) :
    storeFind (storePut m a v) b = if b = a then some v else storeFind m b := by
  induction m with
  | nil => simp [storePut, storeFind]
  | cons c rest ih =>
    obtain ⟨k, w⟩ := c
    simp only [storePut]
    split
    · simp [storeFind]
    · split
      · subst a
        by_cases hb : b = k <;> simp [storeFind, hb]
      · simp only [storeFind, ih]
        by_cases hb : b = k
        · subst b; simp; omega
        · simp [hb]

theorem storeFind_erase {m : List (Nat × β)} (h : keysRise m = true) (a b : Nat) :
    storeFind (storeErase m a) b = if b = a then none else storeFind m b := by
  induction m with
  | nil => simp [storeErase, storeFind]
  | cons c rest ih =>
    obtain ⟨k, w⟩ := c
    obtain ⟨ha, hr⟩ := (keysRise_cons k w rest).1 h
    simp only [storeErase]
    split
    · subst a
      by_cases hb : b = k
      · subst b; simp [storeFind_above ha]
      · simp [storeFind, hb]
    · simp only [storeFind, ih hr]
      by_cases hb : b = k
      · subst b; simp; omega
      · simp [hb]

/-! ### The canonical form is kept -/

theorem keysAbove_put {m : List (Nat × β)} {b a : Nat} {v : β} (h : keysAbove b m) (ha : b < a) :
    keysAbove b (storePut m a v) := by
  induction m with
  | nil => simpa [storePut, keysAbove] using ha
  | cons c rest ih =>
    obtain ⟨k, w⟩ := c
    have h1 : b < k := h (k, w) (by simp)
    have h2 : keysAbove b rest := fun c hc => h c (by simp [hc])
    simp only [storePut]
    split
    · intro c hc
      simp only [List.mem_cons] at hc
      rcases hc with rfl | rfl | hc
      exacts [ha, h1, h2 c hc]
    · split
      · intro c hc
        simp only [List.mem_cons] at hc
        rcases hc with rfl | hc
        exacts [ha, h2 c hc]
      · intro c hc
        simp only [List.mem_cons] at hc
        rcases hc with rfl | hc
        exacts [h1, ih h2 c hc]

theorem keysRise_put {m : List (Nat × β)} (h : keysRise m = true) (a : Nat) (v : β) :
    keysRise (storePut m a v) = true := by
  induction m with
  | nil => rfl
  | cons c rest ih =>
    obtain ⟨k, w⟩ := c
    obtain ⟨ha, hr⟩ := (keysRise_cons k w rest).1 h
    simp only [storePut]
    split
    · exact (keysRise_cons a v _).2 ⟨fun c hc => by
        simp only [List.mem_cons] at hc
        rcases hc with rfl | hc
        · assumption
        · have := ha c hc; omega, h⟩
    · split
      · subst a; exact (keysRise_cons k v rest).2 ⟨ha, hr⟩
      · exact (keysRise_cons k w _).2 ⟨keysAbove_put ha (by omega), ih hr⟩

theorem storeErase_subset {m : List (Nat × β)} {a : Nat} {c : Nat × β} (h : c ∈ storeErase m a) : c ∈ m := by
  induction m with
  | nil => simp [storeErase] at h
  | cons d rest ih =>
    obtain ⟨k, w⟩ := d
    simp only [storeErase] at h
    split at h
    · exact List.mem_cons_of_mem _ h
    · rcases List.mem_cons.1 h with rfl | h
      · simp
      · exact List.mem_cons_of_mem _ (ih h)

theorem storePut_subset {m : List (Nat × β)} {a : Nat} {v : β} {c : Nat × β} (h : c ∈ storePut m a v) :
    c = (a, v) ∨ c ∈ m := by
  induction m with
  | nil => simpa [storePut] using h
  | cons d rest ih =>
    obtain ⟨k, w⟩ := d
    simp only [storePut] at h
    split at h
    · simpa using h
    · split at h
      · rcases List.mem_cons.1 h with rfl | h
        · simp
        · exact .inr (List.mem_cons_of_mem _ h)
      · rcases List.mem_cons.1 h with rfl | h
        · simp
        · rcases ih h with rfl | h
          · simp
          · exact .inr (List.mem_cons_of_mem _ h)

theorem keysRise_erase {m : List (Nat × β)} (h : keysRise m = true) (a : Nat) : keysRise (storeErase m a) = true := by
  induction m with
  | nil => rfl
  | cons c rest ih =>
    obtain ⟨k, w⟩ := c
    obtain ⟨ha, hr⟩ := (keysRise_cons k w rest).1 h
    simp only [storeErase]
    split
    · exact hr
    · exact (keysRise_cons k w _).2 ⟨fun c hc => ha c (storeErase_subset hc), ih hr⟩

theorem Memory.wf_iff (m : List Host.Cell) :
    Memory.wf m = true ↔ keysRise m = true ∧ ∀ c ∈ m, c.1 < 2 ^ 32 ∧ c.2 ≠ unlistedByte := by
  simp [Memory.wf, List.all_eq_true]

theorem Memory.textWf_iff (t : List (Nat × Word)) :
    Memory.textWf t = true ↔ keysRise t = true ∧ ∀ c ∈ t, c.1 < 2 ^ 32 ∧ c.1 % 4 = 0 := by
  simp [Memory.textWf, List.all_eq_true]

/-- Writing a byte keeps BYTES canonical. -/
theorem memSet_wf {m : List Host.Cell} (h : Memory.wf m = true) {a : Nat} (ha : a < 2 ^ 32) (v : Byte) :
    Memory.wf (memSet m a v) = true := by
  obtain ⟨hk, hc⟩ := (Memory.wf_iff m).1 h
  unfold memSet
  split
  · exact (Memory.wf_iff _).2 ⟨keysRise_erase hk a, fun c hm => hc c (storeErase_subset hm)⟩
  · refine (Memory.wf_iff _).2 ⟨keysRise_put hk a v, fun c hm => ?_⟩
    rcases storePut_subset hm with rfl | hm
    · exact ⟨ha, by assumption⟩
    · exact hc c hm

/-- Placing a statement keeps TEXT canonical. -/
theorem textPut_wf {t : List (Nat × Word)} (h : Memory.textWf t = true) {k : Nat} (hk : k < 2 ^ 32) (h4 : k % 4 = 0)
    (w : Word) : Memory.textWf (storePut t k w) = true := by
  obtain ⟨hr, hc⟩ := (Memory.textWf_iff t).1 h
  refine (Memory.textWf_iff _).2 ⟨keysRise_put hr k w, fun c hm => ?_⟩
  rcases storePut_subset hm with rfl | hm
  · exact ⟨hk, h4⟩
  · exact hc c hm

/-- Removing a statement keeps TEXT canonical. -/
theorem textErase_wf {t : List (Nat × Word)} (h : Memory.textWf t = true) (k : Nat) :
    Memory.textWf (storeErase t k) = true := by
  obtain ⟨hr, hc⟩ := (Memory.textWf_iff t).1 h
  exact (Memory.textWf_iff _).2 ⟨keysRise_erase hr k, fun c hm => hc c (storeErase_subset hm)⟩

/-- A read of BYTES after a write. -/
theorem memGet_memSet {m : List Host.Cell} (h : keysRise m = true) (a b : Nat) (v : Byte) :
    memGet (memSet m a v) b = if b = a then v else memGet m b := by
  unfold memGet memSet
  split
  · rw [storeFind_erase h]
    split
    · simp_all
    · rfl
  · rw [storeFind_put]
    split <;> simp

theorem textKey_lt (a : Word) : textKey a < 2 ^ 32 := (a &&& ~~~(3 : Word)).isLt

theorem textKey_mod (a : Word) : textKey a % 4 = 0 := by
  have h : (a &&& ~~~(3 : Word)).extractLsb' 0 2 = 0 := by
    ext i hi
    have : i = 0 ∨ i = 1 := by omega
    rcases this with rfl | rfl <;> simp
  have h2 := congrArg BitVec.toNat h
  simpa [textKey, BitVec.extractLsb'_toNat] using h2

/-! ### Canonical stores that read alike are equal -/

theorem store_ext {m n : List (Nat × β)} (hm : keysRise m = true) (hn : keysRise n = true)
    (h : ∀ a, storeFind m a = storeFind n a) : m = n := by
  induction m generalizing n with
  | nil =>
    cases n with
    | nil => rfl
    | cons c rest => obtain ⟨k, v⟩ := c; simpa [storeFind] using h k
  | cons c rest ih =>
    obtain ⟨k, v⟩ := c
    obtain ⟨ha, hr⟩ := (keysRise_cons k v rest).1 hm
    cases n with
    | nil => simpa [storeFind] using h k
    | cons d rest' =>
      obtain ⟨k', v'⟩ := d
      obtain ⟨ha', hr'⟩ := (keysRise_cons k' v' rest').1 hn
      have hk : k = k' := by
        by_contra hne
        rcases Nat.lt_or_gt_of_ne hne with hlt | hgt
        · have h1 := h k
          rw [storeFind_above (a := k) (m := (k', v') :: rest') (fun c hc => by
            rcases List.mem_cons.1 hc with rfl | hc
            · exact hlt
            · have := ha' c hc; omega)] at h1
          simp [storeFind] at h1
        · have h1 := h k'
          rw [storeFind_above (a := k') (m := (k, v) :: rest) (fun c hc => by
            rcases List.mem_cons.1 hc with rfl | hc
            · exact hgt
            · have := ha c hc; omega)] at h1
          simp [storeFind] at h1
      subst k'
      have hv := h k
      simp only [storeFind, if_true, Option.some.injEq] at hv
      subst v'
      rw [ih hr hr' fun a => ?_]
      have h1 := h a
      by_cases hak : a = k
      · subst a; rw [storeFind_above ha, storeFind_above ha']
      · simpa [storeFind, hak] using h1

theorem mem_ext {m n : List Host.Cell} (hm : Memory.wf m = true) (hn : Memory.wf n = true)
    (h : ∀ a, memGet m a = memGet n a) : m = n := by
  obtain ⟨km, cm⟩ := (Memory.wf_iff m).1 hm
  obtain ⟨kn, cn⟩ := (Memory.wf_iff n).1 hn
  have listed : ∀ (l : List Host.Cell), (∀ c ∈ l, c.1 < 2 ^ 32 ∧ c.2 ≠ unlistedByte) →
      ∀ a v, storeFind l a = some v → v ≠ unlistedByte := by
    intro l hl a v hv
    induction l with
    | nil => simp [storeFind] at hv
    | cons c rest ih =>
      obtain ⟨k, w⟩ := c
      simp only [storeFind] at hv
      split at hv
      · have := (hl (k, w) (by simp)).2; simp_all
      · exact ih (fun c hc => hl c (by simp [hc])) hv
  refine store_ext km kn fun a => ?_
  have h1 := h a
  unfold memGet at h1
  cases hm' : storeFind m a with
  | none =>
    cases hn' : storeFind n a with
    | none => rfl
    | some w => exact absurd (by simpa [hm', hn'] using h1.symm) (listed n cn a w hn')
  | some v =>
    cases hn' : storeFind n a with
    | none => exact absurd (by simpa [hm', hn'] using h1) (listed m cm a v hm')
    | some w => simpa [hm', hn'] using h1

/-! ### The memory after reset -/

theorem loadData_wf (ps : List (Word × Byte)) : Memory.wf (loadData ps) = true := by
  have : ∀ (ps : List (Word × Byte)) (m : List Host.Cell), Memory.wf m = true →
      Memory.wf (ps.foldl (fun m p => memSet m p.1.toNat p.2) m) = true := by
    intro ps
    induction ps with
    | nil => exact fun m h => h
    | cons p rest ih => exact fun m h => ih _ (memSet_wf h p.1.isLt p.2)
  exact this ps [] rfl

theorem loadText_wf (ps : List (Word × Word)) : Memory.textWf (loadText ps) = true := by
  have : ∀ (ps : List (Word × Word)) (t : List (Nat × Word)), Memory.textWf t = true →
      Memory.textWf (ps.foldl (fun t p => storePut t (textKey p.1) p.2) t) = true := by
    intro ps
    induction ps with
    | nil => exact fun t h => h
    | cons p rest ih => exact fun t h => ih _ (textPut_wf h (textKey_lt p.1) (textKey_mod p.1) p.2)
  exact this ps [] rfl

/-- Memory after reset is canonical. -/
theorem State.resetWith_mem_wf (c : Config) :
    Memory.wf (State.resetWith c).mem = true ∧ Memory.textWf (State.resetWith c).text = true :=
  ⟨loadData_wf _, loadText_wf _⟩

/-! ### Every memory operation keeps the canonical form -/

/-- BYTES and TEXT are canonical. -/
def State.memOk (s : State) : Prop := Memory.wf s.mem = true ∧ Memory.textWf s.text = true

theorem State.setByte_memOk {s : State} (h : s.memOk) (a : Word) (b : Byte) : (s.setByte a b).memOk := by
  unfold State.setByte
  split
  · exact ⟨h.1, textPut_wf h.2 (textKey_lt a) (textKey_mod a) _⟩
  · exact ⟨memSet_wf h.1 a.isLt b, h.2⟩

theorem State.setBytes_memOk {s : State} (h : s.memOk) (a v : Word) (n : Nat) : (s.setBytes a v n).memOk := by
  induction n with
  | zero => exact h
  | succ n ih => exact State.setByte_memOk ih _ _

theorem State.memOk_of_eq {s t : State} (h : s.memOk) (hm : t.mem = s.mem) (ht : t.text = s.text) : t.memOk := by
  unfold State.memOk; rw [hm, ht]; exact h

/-- A raw write keeps both stores canonical. -/
theorem State.rawWrite_memOk {s : State} (h : s.memOk) (a : Word) (w : Width) (v : Word) : (s.rawWrite a w v).memOk := by
  unfold State.rawWrite
  split
  · have hr : (s.record (.store a w (s.savedCells a w))).memOk := State.memOk_of_eq h (by simp) (by simp)
    exact State.memOk_of_eq (State.setBytes_memOk hr a v (bytesOf w)) (by simp) (by simp)
  · exact h

/-- A checked write keeps both stores canonical. -/
theorem State.memWrite_memOk {s t : State} (h : s.memOk) {a : Word} {w : Width} {v : Word}
    (ht : s.memWrite a w v = .ok t) : t.memOk := by
  unfold State.memWrite at ht
  split at ht
  · cases ht
  · cases ht; exact State.rawWrite_memOk h a w v

end Sys2Proof.Machine
end

