-- ==== Sys2Proof/Laws/Bytes.lean ====
section
/-! SUPPORT. Byte order and raw access: what every byte reads after a byte, a run of bytes or a whole access is written
(20_memory.md R156, R157, R161, R162, R170). -/

namespace Sys2Proof.Machine

/-! ### Bytes of a word -/

theorem byteOf_withByte (v : Word) (i j : Nat) (hi : i < 4) (hj : j < 4) (b : Byte) :
    byteOf (withByte v i b) j = if j = i then b else byteOf v j := by
  unfold byteOf withByte
  ext k hk
  have : i = 0 ∨ i = 1 ∨ i = 2 ∨ i = 3 := by omega
  have : j = 0 ∨ j = 1 ∨ j = 2 ∨ j = 3 := by omega
  rcases ‹i = 0 ∨ _› with rfl | rfl | rfl | rfl <;> rcases ‹j = 0 ∨ _› with rfl | rfl | rfl | rfl <;>
    interval_cases k <;> simp

/-- A word is known by its four bytes. -/
theorem word_ext_bytes {v w : Word} (h : ∀ i < 4, byteOf v i = byteOf w i) : v = w := by
  ext k hk
  have := congrArg (fun b : Byte => b.getLsbD (k % 8)) (h (k / 8) (by omega))
  simp only [byteOf, BitVec.getLsbD_extractLsb'] at this
  rw [show 8 * (k / 8) + k % 8 = k by omega] at this
  simpa [Nat.mod_lt, BitVec.getLsbD_eq_getElem hk] using this

theorem byteOf_zero (i : Nat) : byteOf (0 : Word) i = (0 : Byte) := by
  unfold byteOf; ext k hk; simp

theorem byteOf_wordOf (g : Nat → Byte) (n i : Nat) (hn : n ≤ 4) (hi : i < 4) :
    byteOf (wordOf g n) i = if i < n then g i else 0 := by
  induction n with
  | zero => rw [wordOf, byteOf_zero, if_neg (by omega)]
  | succ n ih =>
    rw [wordOf, byteOf_withByte _ _ _ (by omega) hi, ih (by omega)]
    by_cases h : i = n
    · subst i; simp
    · simp only [h, if_false]
      by_cases h2 : i < n
      · rw [if_pos h2, if_pos (by omega)]
      · rw [if_neg h2, if_neg (by omega)]

theorem bytesOf_le (w : Width) : bytesOf w ≤ 4 := by cases w <;> decide

theorem byteOf_maskWidth (w : Width) (v : Word) (i : Nat) (hi : i < 4) :
    byteOf (maskWidth w v) i = if i < bytesOf w then byteOf v i else 0 := by
  have : i = 0 ∨ i = 1 ∨ i = 2 ∨ i = 3 := by omega
  unfold byteOf
  ext k hk
  cases w <;> rcases this with rfl | rfl | rfl | rfl <;> interval_cases k <;> simp [maskWidth, bytesOf]

/-! ### Byte access -/

theorem State.byteAt_of_eq {s t : State} (hc : t.cfg = s.cfg) (hm : t.mem = s.mem) (ht : t.text = s.text) (a : Word) :
    t.byteAt a = s.byteAt a := by
  unfold State.byteAt; rw [hc, hm, ht]

theorem and_not_and_and (a m : Word) : (a &&& ~~~m) &&& (a &&& m) = 0 := by
  ext i hi; simp; cases a[i] <;> cases m[i] <;> simp

theorem and_not_or_and (a m : Word) : (a &&& ~~~m) ||| (a &&& m) = a := by
  ext i hi; simp; cases a[i] <;> cases m[i] <;> simp

/-- One address of a word, split into its word and its offset. -/
theorem textKey_add_mod (a : Word) : a.toNat = textKey a + a.toNat % 4 := by
  have h := congrArg BitVec.toNat (BitVec.add_eq_or_of_and_eq_zero _ _ (and_not_and_and a 3))
  rw [and_not_or_and, BitVec.toNat_add] at h
  have h2 : (a &&& 3).toNat = a.toNat % 4 := by
    rw [BitVec.toNat_and]
    exact Nat.and_two_pow_sub_one_eq_mod a.toNat 2
  have h5 := textKey_mod a
  have h6 := textKey_lt a
  unfold textKey at *
  rw [h2, Nat.mod_eq_of_lt (by omega)] at h
  exact h.symm

theorem textKey_eq_iff {a b : Word} (h : textKey a = textKey b) (hm : a.toNat % 4 = b.toNat % 4) : a = b := by
  have h1 := textKey_add_mod a
  have h2 := textKey_add_mod b
  exact BitVec.eq_of_toNat_eq (by omega)

/-- The byte at every address after one byte is written. -/
theorem State.byteAt_setByte {s : State} (h : keysRise s.mem = true) (a c : Word) (b : Byte) :
    (s.setByte a b).byteAt c = if c = a then b else s.byteAt c := by
  have hm4 : ∀ x : Word, x.toNat % 4 < 4 := fun x => Nat.mod_lt _ (by decide)
  unfold State.byteAt
  by_cases ha : executableAt s.cfg.memMap a = true
  · let nw := withByte ((storeFind s.text (textKey a)).getD 0) (a.toNat % 4) b
    have hs : s.setByte a b = { s with text := storePut s.text (textKey a) nw } := by
      unfold State.setByte; rw [if_pos ha]
    rw [hs]
    by_cases hc : executableAt s.cfg.memMap c = true
    · simp only [hc, if_true, storeFind_put]
      by_cases hk : textKey c = textKey a
      · simp only [hk, if_true, Option.getD_some]
        simp only [nw]
        rw [byteOf_withByte _ _ _ (hm4 a) (hm4 c)]
        by_cases hmod : c.toNat % 4 = a.toNat % 4
        · rw [if_pos hmod, if_pos (textKey_eq_iff hk hmod)]
        · rw [if_neg hmod, if_neg (fun he => hmod (by rw [he]))]
      · rw [if_neg hk, if_neg (fun he => hk (by rw [he]))]
    · simp only [hc, Bool.false_eq_true, if_false]
      rw [if_neg (fun he => hc (by rw [he]; exact ha))]
  · have hs : s.setByte a b = { s with mem := memSet s.mem a.toNat b } := by
      unfold State.setByte; rw [if_neg ha]
    rw [hs]
    by_cases hc : executableAt s.cfg.memMap c = true
    · simp only [hc, if_true]
      rw [if_neg (fun he => ha (by rw [← he]; exact hc))]
    · simp only [hc, Bool.false_eq_true, if_false]
      rw [memGet_memSet h]
      by_cases he : c = a
      · subst c; simp
      · rw [if_neg (fun h2 => he (BitVec.eq_of_toNat_eq h2)), if_neg he]

theorem State.setByte_keysRise {s : State} (h : keysRise s.mem = true) (a : Word) (b : Byte) :
    keysRise (s.setByte a b).mem = true := by
  unfold State.setByte
  split
  · exact h
  · simp only [memSet]
    split
    · exact keysRise_erase h _
    · exact keysRise_put h _ _

theorem State.setBytes_keysRise {s : State} (h : keysRise s.mem = true) (a v : Word) (n : Nat) :
    keysRise (s.setBytes a v n).mem = true := by
  induction n with
  | zero => exact h
  | succ n ih => exact State.setByte_keysRise ih _ _

/-- The byte at every address after a run of at most four bytes is written. -/
theorem State.byteAt_setBytes {s : State} (h : keysRise s.mem = true) (a v c : Word) (n : Nat) (hn : n ≤ 4) :
    (s.setBytes a v n).byteAt c = if (c - a).toNat < n then byteOf v (c - a).toNat else s.byteAt c := by
  induction n with
  | zero => simp [State.setBytes]
  | succ n ih =>
    rw [State.setBytes, State.byteAt_setByte (State.setBytes_keysRise h a v n), ih (by omega)]
    have hlt := (c - a).isLt
    by_cases hc : c = a + BitVec.ofNat 32 n
    · subst hc
      have hs : (a + BitVec.ofNat 32 n - a).toNat = n := by
        rw [show a + BitVec.ofNat 32 n - a = BitVec.ofNat 32 n by
          rw [BitVec.add_comm, BitVec.add_sub_cancel], BitVec.toNat_ofNat]
        omega
      rw [hs, if_pos rfl, if_pos (by omega)]
    · have hs : (c - a).toNat ≠ n := by
        intro he
        apply hc
        have : c - a = BitVec.ofNat 32 n := by
          apply BitVec.eq_of_toNat_eq; rw [he, BitVec.toNat_ofNat]; omega
        rw [← this, BitVec.add_comm, BitVec.sub_add_cancel]
      rw [if_neg hc]
      by_cases h2 : (c - a).toNat < n
      · rw [if_pos h2, if_pos (by omega)]
      · rw [if_neg h2, if_neg (by omega)]

/-! ### Whole accesses -/

/-- The bytes a raw read gives (R156, R170). -/
theorem State.byteOf_rawRead (s : State) (a : Word) (w : Width) (i : Nat) (hi : i < 4) :
    byteOf (s.rawRead a w) i = if i < bytesOf w then s.byteAt (a + BitVec.ofNat 32 i) else 0 := by
  unfold State.rawRead
  rw [byteOf_wordOf _ _ _ (bytesOf_le w) hi]

theorem sub_add_ofNat (a c : Word) {n : Nat} (h : (c - a).toNat = n) : a + BitVec.ofNat 32 n = c := by
  have : BitVec.ofNat 32 n = c - a := by
    apply BitVec.eq_of_toNat_eq
    rw [BitVec.toNat_ofNat, ← h]
    exact Nat.mod_eq_of_lt (c - a).isLt
  rw [this, BitVec.add_comm, BitVec.sub_add_cancel]

/-- The byte at every address after a raw write (R156, R157, R170). -/
theorem State.byteAt_rawWrite {s : State} (h : keysRise s.mem = true) (a v c : Word) (w : Width) :
    (s.rawWrite a w v).byteAt c =
      if (c - a).toNat < bytesOf w then byteOf v (c - a).toNat else s.byteAt c := by
  unfold State.rawWrite
  split
  · rw [State.byteAt_of_eq (s := (s.record (.store a w (s.savedCells a w))).setBytes a v (bytesOf w)) (by simp) (by simp)
      (by simp), State.byteAt_setBytes (by simpa using h) _ _ _ _ (bytesOf_le w)]
    split
    · rfl
    · exact State.byteAt_of_eq (by simp) (by simp) (by simp) c
  · rename_i hno
    split
    · rename_i hlt
      have hr : s.rawRead a w = maskWidth w v := by
        simp [State.storeChanges] at hno; exact hno.1
      have h4 : (c - a).toNat < 4 := Nat.lt_of_lt_of_le hlt (bytesOf_le w)
      have h1 := s.byteOf_rawRead a w (c - a).toNat h4
      rw [hr, byteOf_maskWidth w v _ h4, if_pos hlt, if_pos hlt, sub_add_ofNat a c rfl] at h1
      exact h1.symm
    · rfl

/-- A read of what was just written gives it back (R156, R171). -/
theorem State.rawRead_rawWrite {s : State} (h : keysRise s.mem = true) (a v : Word) (w : Width) :
    (s.rawWrite a w v).rawRead a w = maskWidth w v := by
  refine word_ext_bytes fun i hi => ?_
  rw [State.byteOf_rawRead _ _ _ _ hi, byteOf_maskWidth w v i hi]
  split
  · rename_i hw
    rw [State.byteAt_rawWrite h]
    have hs : (a + BitVec.ofNat 32 i - a).toNat = i := by
      rw [show a + BitVec.ofNat 32 i - a = BitVec.ofNat 32 i by rw [BitVec.add_comm, BitVec.add_sub_cancel],
        BitVec.toNat_ofNat]
      omega
    rw [hs, if_pos hw]
  · rfl

end Sys2Proof.Machine
end

