-- ==== Sys2Proof/Laws/Registers.lean ====
section
/-! SUPPORT. What a read of a register finds after a write: the general, the floating-point and the control/status
bank, the accrued flags, and the CSRs a trap leaves. -/

namespace Sys2Proof.Machine

/-! ## General and floating-point registers -/

theorem State.readX_congr {s t : State} (h : t.x = s.x) (r : Reg) : t.readX r = s.readX r := by
  simp only [State.readX, h]

theorem State.readF_congr {s t : State} (h : t.f = s.f) (r : Reg) : t.readF r = s.readF r := by
  simp only [State.readF, h]

@[simp] theorem State.readX_zero (s : State) : s.readX 0 = 0 := rfl

@[simp] theorem State.writeX_zero (s : State) (v : Word) : s.writeX 0 v = s := rfl

theorem reg_toNat_ne {r r' : Reg} (h : r' ≠ r) : r.toNat ≠ r'.toNat := fun e => h (BitVec.eq_of_toNat_eq e.symm)

theorem State.readX_writeX (s : State) (r r' : Reg) (v : Word) :
    (s.writeX r v).readX r' = if r' = r ∧ r ≠ 0 then v else s.readX r' := by
  unfold State.writeX
  by_cases h0 : r = 0
  · simp [h0]
  by_cases hv : s.readX r = v
  · rw [if_neg h0, if_pos hv]
    by_cases hr : r' = r
    · subst hr; simp [hv]
    · simp [hr]
  rw [if_neg h0, if_neg hv]
  by_cases hr : r' = r
  · subst hr
    have h0' : ¬ r' = 0#5 := h0
    simp [State.readX, State.emit, h0']
  · have := reg_toNat_ne hr
    simp [State.readX, State.emit, hr, this]

theorem State.readF_writeF (s : State) (r r' : Reg) (v : DWord) :
    (s.writeF r v).readF r' = if r' = r then v else s.readF r' := by
  unfold State.writeF
  by_cases hv : s.readF r = v
  · rw [if_pos hv]
    by_cases hr : r' = r
    · subst hr; simp [hv]
    · simp [hr]
  rw [if_neg hv]
  by_cases hr : r' = r
  · subst hr; simp [State.readF, State.emit]
  · have := reg_toNat_ne hr
    simp [State.readF, State.emit, hr, this]

/-- The cell behind x0 is never written. -/
theorem State.writeX_x0 (s : State) (r : Reg) (v : Word) : (s.writeX r v).x[0] = s.x[0] := by
  unfold State.writeX
  split
  · rfl
  rename_i h0
  split
  · rfl
  · have : r.toNat ≠ 0 := fun e => h0 (BitVec.eq_of_toNat_eq e)
    simp [State.emit, this]

/-! ## The program counter -/

@[simp] theorem State.writePc_pc (s : State) (v : Word) : (s.writePc v).pc = v := by
  unfold State.writePc
  split
  · assumption
  · rfl

@[simp] theorem State.jumpTo_pc (s : State) (v : Word) : (s.jumpTo v).pc = v := by
  unfold State.jumpTo
  dsimp only
  split
  · simpa
  · simp

/-- The iteration's variables after a jump. -/
@[simp] theorem State.jumpTo_iter (s : State) (v : Word) : (s.jumpTo v).iter = { s.iter with pcSet := true } := by
  unfold State.jumpTo
  dsimp only
  split <;> simp

/-- The advance of step 4. -/
theorem State.advance_pc (s : State) : s.advance.pc = if s.iter.pcSet then s.pc else s.iter.cur + 4 := by
  unfold State.advance
  split <;> simp

/-! ## The control/status bank -/

@[simp] theorem Csrs.set_get (t : Csrs) (c : Csr) : t.set c (t.get c) = t := by
  cases c <;> rfl

@[simp] theorem Csrs.get_set (t : Csrs) (c : Csr) (v : Word) : (t.set c v).get c = v := by
  cases c <;> rfl

theorem State.csrStore_csr (s : State) (c : Csr) (v : Word) : (s.csrStore c v).csr = s.csr.set c v := by
  unfold State.csrStore
  split
  · rename_i h
    rw [← h, Csrs.set_get]
  · rfl

theorem State.csrRead_eq (s : State) (c : Csr) : s.csrRead c = csrShown s.csr c := by
  cases c <;> simp [State.csrRead, csrShown, Csr.kind, Csrs.get]

theorem State.csrWrite_csr (s : State) (c : Csr) (v : Word) : (s.csrWrite c v).csr = csrWritten s.csr c v := by
  cases c <;> simp [State.csrWrite, csrWritten, Csr.kind, Csr.backing, State.csrStore_csr, Csrs.get, Csrs.set]

theorem State.csrBackdoor_csr (s : State) (c : Csr) (v : Word) : (s.csrBackdoor c v).csr = s.csr.set c v := rfl

/-- Accruing flags ORs them into `fcsr` and changes no other register of the bank. -/
theorem State.accrue_csr (s : State) (fl : Fflags) :
    (s.accrue fl).csr = { s.csr with fcsr := s.csr.fcsr ||| fl.setWidth 32 } := by
  unfold State.accrue
  split
  · rename_i h; subst h; simp
  · have key : ∀ (a : Word) (b : Fflags), (a &&& ~~~(0x1F : Word)) ||| (((a &&& 0x1F) ||| b.setWidth 32) &&& 0x1F)
        = a ||| b.setWidth 32 := by
      intro a b
      have hm : ∀ i, ∀ h : i < 32, (0x1F : Word)[i] = decide (i < 5) := by decide
      apply BitVec.eq_of_getElem_eq
      intro i hi
      simp only [BitVec.getElem_or, BitVec.getElem_and, BitVec.getElem_not, hm i hi, BitVec.getElem_setWidth]
      by_cases h5 : i < 5
      · simp [h5]
      · simp [h5, BitVec.getLsbD_of_ge b i (by omega)]
    rw [State.csrWrite_csr, State.csrRead_eq]
    simp only [csrWritten, csrShown, key]

/-! ## The CSRs a trap or an interrupt leaves (R630-R633) -/

theorem State.writeTrapRecord_csr (s : State) (cause epc tval : Word) :
    (s.writeTrapRecord cause epc tval).csr = { s.csr with ucause := cause, uepc := epc, utval := tval } := by
  simp [State.writeTrapRecord, State.csrWrite_csr, csrWritten]

/-- UPIE takes UIE, and UIE is cleared. -/
theorem State.stackUie_csr (s : State) : s.stackUie.csr =
    { s.csr with ustatus := (s.csr.ustatus &&& ~~~(0x11 : Word)) ||| ((s.csr.ustatus &&& 1) <<< 4) } := by
  have key : ∀ a : Word, (a &&& ~~~(0x11 : Word)) |||
      (((a &&& ~~~(0x11 : Word)) ||| ((a &&& 1) <<< 4)) &&& (0x11 : Word)) = (a &&& ~~~(0x11 : Word)) ||| ((a &&& 1) <<< 4) := by
    intro a
    have hm : ∀ i, ∀ h : i < 32, (0x11 : Word)[i] = decide (i = 0 ∨ i = 4) := by decide
    have h1 : ∀ i, ∀ h : i < 32, ((1 : Word) <<< 4)[i] = decide (i = 4) := by decide
    rw [BitVec.shiftLeft_and_distrib]
    apply BitVec.eq_of_getElem_eq
    intro i hi
    simp only [BitVec.getElem_or, BitVec.getElem_and, BitVec.getElem_not, hm i hi, h1 i hi]
    by_cases h0 : i = 0 <;> by_cases h4 : i = 4 <;> simp [h0, h4]
  simp only [State.stackUie, State.csrRead_eq, State.csrWrite_csr, csrWritten, csrShown, Csrs.get]
  rw [key]

end Sys2Proof.Machine
end

