-- ==== Sys2Proof/Laws/Results.lean ====
section
/-! SUPPORT. What each shared ending of an instruction does, once: a result written and the advance, a jump, a store, a
loaded value, a resolved or unresolved rounding mode, an exception taken. -/

namespace Sys2Proof.Machine

/-! ## Composing the frame -/

theorem SameRest.refl (s : State) : SameRest s s := ⟨rfl, rfl, rfl, rfl, rfl, rfl, rfl, rfl, rfl, rfl, rfl, rfl⟩

theorem SameMemory.of_eq {s t : State} (hc : t.cfg = s.cfg) (hm : t.mem = s.mem) (ht : t.text = s.text) :
    SameMemory s t := ⟨fun a => State.byteAt_of_eq hc hm ht a, fun k => by rw [ht]⟩

/-! ## A completed behaviour -/

theorem finish_done (s : State) : finish (.done s) = .next s.advance := rfl

theorem finish_raise (e : Exc) (s : State) : finish (.raise e s) = takeException e s := rfl

theorem finish_exit (code : Word) (s : State) : finish (.exit code s) = .next (s.stop (.exit code)) := rfl

/-- A general register written, with flags, and the advance. -/
theorem retireX_advance (s : State) (rd : Reg) (res : Word × Fflags) :
    SetsX s (s.startIter.retireX rd res).advance rd res.1 res.2 (s.pc + 4) 0 where
  gpr r := by
    rw [State.readX_congr (t := (s.startIter.retireX rd res).advance) (s := s.startIter.writeX rd res.1)
      (by simp [State.retireX]), State.readX_writeX]
    rfl
  fpr r := State.readF_congr (by simp) r
  csr := by simp [State.retireX, State.accrue_csr]
  pc := by simp [State.advance_pc, State.startIter]
  memory := .of_eq (by simp) (by simp) (by simp)
  rest := by constructor <;> simp
  draws := by simp
  completed := by constructor <;> simp [State.startIter]

/-- A general register written and the advance. -/
theorem writeX_advance (s : State) (rd : Reg) (v : Word) :
    SetsX s (s.startIter.writeX rd v).advance rd v 0 (s.pc + 4) 0 := by
  simpa [State.retireX, State.accrue] using retireX_advance s rd (v, 0)

/-- `writesX` answers a next state. -/
theorem writesX_runs (s : State) (rd : Reg) (v : Word) :
    ∃ t, writesX s rd v = .next t ∧ SetsX s t rd v 0 (s.pc + 4) 0 :=
  ⟨_, rfl, writeX_advance s rd v⟩

/-- A floating-point register written, with flags, and the advance. -/
theorem retireD_advance (s : State) (rd : Reg) (res : DWord × Fflags) :
    SetsF s (s.startIter.retireD rd res).advance rd res.1 res.2 0 where
  gpr r := State.readX_congr (by simp) r
  fpr r := by
    rw [State.readF_congr (t := (s.startIter.retireD rd res).advance) (s := s.startIter.writeF rd res.1)
      (by simp [State.retireD]), State.readF_writeF]
    rfl
  csr := by simp [State.retireD, State.accrue_csr]
  pc := by simp [State.advance_pc, State.startIter]
  memory := .of_eq (by simp) (by simp) (by simp)
  rest := by constructor <;> simp
  draws := by simp
  completed := by constructor <;> simp [State.startIter]

/-- A single is retired as a double is, boxed. -/
theorem retireS_advance (s : State) (rd : Reg) (res : Word × Fflags) :
    SetsF s (s.startIter.retireS rd res).advance rd ((0xFFFFFFFF : Word) ++ res.1) res.2 0 :=
  retireD_advance s rd ((0xFFFFFFFF : Word) ++ res.1, res.2)

/-- A floating-point register written and the advance. -/
theorem writeF_advance (s : State) (rd : Reg) (v : DWord) :
    SetsF s (s.startIter.writeF rd v).advance rd v 0 0 := by
  simpa [State.retireD, State.accrue] using retireD_advance s rd (v, 0)

/-- The advance alone. -/
theorem startIter_advance (s : State) : Goes s s.startIter.advance (s.pc + 4) false where
  gpr r := State.readX_congr (by simp) r
  fpr r := State.readF_congr (by simp) r
  csr := by simp
  pc := by simp [State.advance_pc, State.startIter]
  memory := .of_eq (by simp) (by simp) (by simp)
  rest := by constructor <;> simp
  draws := by simp
  raised := by simp [State.startIter]
  breakpointHit := by simp [State.startIter]

/-- A jump: the advance leaves its target. -/
theorem jumpTo_advance (s : State) (target : Word) :
    Goes s (s.startIter.jumpTo target).advance target false where
  gpr r := State.readX_congr (by simp) r
  fpr r := State.readF_congr (by simp) r
  csr := by simp
  pc := by simp [State.advance_pc]
  memory := .of_eq (by simp) (by simp) (by simp)
  rest := by constructor <;> simp
  draws := by simp
  raised := by simp [State.startIter]
  breakpointHit := by simp [State.startIter]

/-! ## Rounding modes (R460) -/

theorem withRm_some {rm : BitVec 3} {s : State} {k : Rm → State} {r : Rm} (h : s.resolveRm rm = some r) :
    withRm rm s k = .done (k r) := by
  simp [withRm, h]

theorem withRm_none {rm : BitVec 3} {s : State} {k : Rm → State} (h : s.resolveRm rm = none) :
    withRm rm s k = .raise (.illegalInstruction s.fetchedWord) s := by
  simp [withRm, h]

/-- The word a trapping behaviour reports is the one that stands at `pc` (R601). -/
theorem fetchedWord_startIter {s : State} {w : Word} (h : StatementAt s w) : s.startIter.fetchedWord = w := by
  have h' : storeFind s.text s.pc.toNat = some w := h
  simp [State.fetchedWord, State.startIter, h']

@[simp] theorem resolveRm_startIter (s : State) (rm : BitVec 3) : s.startIter.resolveRm rm = s.resolveRm rm := rfl

/-! ## Taking an exception (R611, R612, R623, R629-R631) -/

/-- With no synchronous record pending, taking an exception is: `raised` set, `pc` past the instruction, the trap
delivered. -/
theorem takeException_eq {s : State} (h : SyncIdle s) (e : Exc) :
    takeException e s = .next (({ s with iter := { s.iter with raised := true } }.writePc (s.iter.cur + 4)).deliverSync
      ⟨e, s.iter.cur⟩) := by
  have hs : s.ctl.sync = none := h
  have hc : ({ s.ctl with sync := none } : Controller) = s.ctl := by
    cases hh : s.ctl with
    | mk a b c d => rw [hh] at hs; simp only at hs; rw [hs]
  have hcomm : ∀ (t : State) (c1 c2 : Controller) (v : Word),
      { ({ t with ctl := c1 } : State).writePc v with ctl := c2 } = ({ t with ctl := c2 } : State).writePc v := by
    intro t c1 c2 v
    unfold State.writePc State.record State.emit
    cases hr : t.recording <;> by_cases h1 : t.pc = v <;> cases h2 : t.iter.step <;> simp [h1]
  simp only [takeException, Controller.registerSync, hs, Controller.claimSync, State.writePc_ctl]
  rw [if_neg (by rw [State.writePc_pc]; simp)]
  have h3 := hcomm { s with iter := { s.iter with raised := true } } { s.ctl with sync := some ⟨e, s.iter.cur⟩ }
    { s.ctl with sync := none } (s.iter.cur + 4)
  simp only [hc] at h3 ⊢
  rw [h3]

theorem handlerOk_iff (s : State) (a : Word) : s.handlerOk a = true ↔ HandlerAt s a := by
  simp [State.handlerOk, HandlerAt, aligned, bytesOf, and_assoc]

end Sys2Proof.Machine
end

