-- ==== Sys2Proof/Laws/Actions.lean ====
section
/-! SUPPORT. What an instruction's behaviour can do to the state, said once: it is a sequence of the actions below, and
then it completes, raises or exits. -/

namespace Sys2Proof.Machine

/-- One action of a behaviour. -/
inductive Action : State → State → Prop where
  | gpr (s : State) (r : Reg) (v : Word) : Action s (s.writeX r v)
  | fpr (s : State) (r : Reg) (v : DWord) : Action s (s.writeF r v)
  | csr (s : State) (c : Csr) (v : Word) : Action s (s.csrWrite c v)
  | store (s : State) (a : Word) (w : Width) (v : Word) (ha : aligned a w = true)
      (hp : permits s.cfg a .write = true) : Action s (s.rawWrite a w v)
  | jump (s : State) (v : Word) : Action s (s.jumpTo v)
  | heap (s : State) (top : Nat) : Action s { s.record (.heap s.heapTop) with heapTop := top }
  | draw (s : State) : Action s { s with draws := s.draws + 1 }
  | breakpoint (s : State) : Action s { s with iter := { s.iter with breakpointHit := true } }

/-- A sequence of actions. -/
abbrev Actions : State → State → Prop := Relation.ReflTransGen Action

/-- The state a behaviour ends in, whether it completes, raises or exits. -/
def Behaviour.final : Behaviour → State
  | .done s => s
  | .raise _ s => s
  | .exit _ s => s

/-- The outcome is the end of a behaviour that acted from `s` on. -/
def Acted (s : State) (res : Result) : Prop := ∃ b : Behaviour, res = finish b ∧ Actions s b.final

theorem Action.one {s t : State} (h : Action s t) : Actions s t := .single h

theorem actions_writeX {s t : State} (h : Actions s t) (r : Reg) (v : Word) : Actions s (t.writeX r v) :=
  h.tail (.gpr t r v)

theorem actions_writeF {s t : State} (h : Actions s t) (r : Reg) (v : DWord) : Actions s (t.writeF r v) :=
  h.tail (.fpr t r v)

theorem actions_accrue {s t : State} (h : Actions s t) (fl : Fflags) : Actions s (t.accrue fl) := by
  unfold State.accrue
  split
  · exact h
  · exact h.tail (.csr t _ _)

theorem actions_afterRead {s t : State} (h : Actions s t) (a : Word) : Actions s (t.afterRead a) := by
  unfold State.afterRead
  split
  · exact h.tail (.draw t)
  · exact h

/-! ## One lemma per shape of instruction -/

theorem acted_writesX (s : State) (rd : Reg) (v : Word) : Acted s.startIter (writesX s rd v) :=
  ⟨_, rfl, actions_writeX .refl rd v⟩

theorem acted_retireX (s : State) (rd : Reg) (res : Word × Fflags) :
    Acted s.startIter (finish (.done (s.startIter.retireX rd res))) :=
  ⟨_, rfl, actions_accrue (actions_writeX .refl rd res.1) res.2⟩

theorem acted_retireD (s : State) (rd : Reg) (res : DWord × Fflags) :
    Acted s.startIter (finish (.done (s.startIter.retireD rd res))) :=
  ⟨_, rfl, actions_accrue (actions_writeF .refl rd res.1) res.2⟩

theorem acted_retireS (s : State) (rd : Reg) (res : Word × Fflags) :
    Acted s.startIter (finish (.done (s.startIter.retireS rd res))) := acted_retireD s rd (boxSingle res.1, res.2)

theorem acted_writeS (s : State) (rd : Reg) (v : Word) :
    Acted s.startIter (finish (.done (s.startIter.writeS rd v))) := ⟨_, rfl, actions_writeF .refl rd _⟩

theorem acted_withSign (s : State) (rd : Reg) (v : DWord) :
    Acted s.startIter (finish (.done (s.startIter.writeF rd v))) := ⟨_, rfl, actions_writeF .refl rd v⟩

theorem acted_withRm (rm : BitVec 3) (s : State) (k : Rm → State)
    (h : ∀ r, Acted s.startIter (finish (.done (k r)))) :
    Acted s.startIter (finish (withRm rm s.startIter k)) := by
  unfold withRm
  split
  · exact ⟨_, rfl, .refl⟩
  · exact h _

theorem acted_branch (taken : Bool) (s : State) (imm : BitVec 13) : Acted s.startIter (branchIf taken s imm) := by
  refine ⟨_, rfl, ?_⟩
  simp only [Behaviour.final]
  split
  · exact .single (.jump _ _)
  · exact .refl

theorem acted_jump (s : State) (rd : Reg) (target : Word) : Acted s.startIter (jumpAndLink s rd target) :=
  ⟨_, rfl, actions_writeX (.single (.jump _ _)) rd _⟩

theorem memRead_cases (s : State) (a : Word) (w : Width) :
    (∃ e, s.memRead a w = .error e) ∨ s.memRead a w = .ok (s.loadedValue a w, s.afterRead a) := by
  unfold State.memRead
  split
  · exact .inl ⟨_, rfl⟩
  · exact .inr rfl

theorem memWrite_cases (s : State) (a : Word) (w : Width) (v : Word) :
    (∃ e, s.memWrite a w v = .error e) ∨
    (s.memWrite a w v = .ok (s.rawWrite a w v) ∧ aligned a w = true ∧ permits s.cfg a .write = true) := by
  unfold State.memWrite State.accessFault
  by_cases h1 : aligned a w = true <;> by_cases h2 : permits s.cfg a .write = true <;> simp [h1, h2]

theorem acted_load (w : Width) (ext : Word → Word) (rd rs1 : Reg) (imm : BitVec 12) (s : State) :
    Acted s.startIter (loadX w ext rd rs1 imm s) := by
  unfold loadX
  rcases memRead_cases s.startIter (s.effAddr rs1 imm) w with ⟨e, h⟩ | h
  · rw [h]; exact ⟨_, rfl, .refl⟩
  · rw [h]; exact ⟨_, rfl, actions_writeX (actions_afterRead .refl _) _ _⟩

theorem acted_store (w : Width) (rs1 : Reg) (imm : BitVec 12) (v : Word) (s : State) :
    Acted s.startIter (storeAt w rs1 imm v s) := by
  unfold storeAt
  rcases memWrite_cases s.startIter (s.effAddr rs1 imm) w v with ⟨e, h⟩ | ⟨h, ha, hp⟩
  · rw [h]; exact ⟨_, rfl, .refl⟩
  · rw [h]; exact ⟨_, rfl, .single (.store _ _ _ _ ha hp)⟩

theorem acted_flw (rd rs1 : Reg) (imm : BitVec 12) (s : State) : Acted s.startIter (execFlw rd rs1 imm s) := by
  unfold execFlw
  rcases memRead_cases s.startIter (s.effAddr rs1 imm) .word with ⟨e, h⟩ | h
  · rw [h]; exact ⟨_, rfl, .refl⟩
  · rw [h]; exact ⟨_, rfl, actions_writeF (actions_afterRead .refl _) _ _⟩

theorem acted_fsw (rs1 rs2 : Reg) (imm : BitVec 12) (s : State) : Acted s.startIter (execFsw rs1 rs2 imm s) := by
  unfold execFsw
  rcases memWrite_cases s.startIter (s.effAddr rs1 imm) .word (s.readLow rs2) with ⟨e, h⟩ | ⟨h, ha, hp⟩
  · rw [h]; exact ⟨_, rfl, .refl⟩
  · rw [h]; exact ⟨_, rfl, .single (.store _ _ _ _ ha hp)⟩

theorem acted_fld (rd rs1 : Reg) (imm : BitVec 12) (s : State) : Acted s.startIter (execFld rd rs1 imm s) := by
  unfold execFld State.read64
  split
  · exact ⟨_, rfl, .refl⟩
  · rename_i v t h
    split at h
    · cases h
    · injection h with h
      injection h with h1 h2
      subst h2
      exact ⟨_, rfl, actions_writeF (actions_afterRead (actions_afterRead .refl _) _) _ _⟩

theorem accessFault64_none {s : State} {k : AccessKind} {ea : Word} (h : s.accessFault64 k ea = none) :
    aligned ea .word = true ∧ permits s.cfg ea k = true ∧ permits s.cfg (ea + 4) k = true := by
  unfold State.accessFault64 at h
  by_cases h1 : aligned ea .word = true <;> by_cases h2 : permits s.cfg ea k = true <;>
    by_cases h3 : permits s.cfg (ea + 4) k = true <;> simp_all

theorem aligned_add_four {a : Word} (h : aligned a .word = true) : aligned (a + 4) .word = true := by
  simp only [aligned, bytesOf, beq_iff_eq, BitVec.toNat_add, show (4 : Word).toNat = 4 from rfl] at h ⊢
  omega

theorem acted_fsd (rs1 rs2 : Reg) (imm : BitVec 12) (s : State) : Acted s.startIter (execFsd rs1 rs2 imm s) := by
  unfold execFsd State.write64
  cases h : s.startIter.accessFault64 .write (s.effAddr rs1 imm) with
  | some e => exact ⟨_, rfl, .refl⟩
  | none =>
    obtain ⟨ha, hp, hp2⟩ := accessFault64_none h
    refine ⟨_, rfl, Relation.ReflTransGen.tail (.single (.store _ _ _ _ ha hp)) (.store _ _ _ _ (aligned_add_four ha) ?_)⟩
    simpa using hp2

theorem acted_csr (rd : Reg) (n : CsrNum) (due : Bool) (new : Word → Word) (s : State) :
    Acted s.startIter (finish (csrAccess rd n due new s.startIter)) := by
  unfold csrAccess
  split
  · exact ⟨_, rfl, .refl⟩
  · split
    · exact ⟨_, rfl, .refl⟩
    · refine ⟨_, rfl, actions_writeX ?_ _ _⟩
      split
      · exact .single (.csr _ _ _)
      · exact .refl

theorem allocate_cases (s : State) (n : Word) :
    s.allocate n = none ∨ ∃ r t, s.allocate n = some (r, t) ∧ Actions s t := by
  unfold State.allocate
  simp only []
  split
  · exact .inl rfl
  · split
    · exact .inl rfl
    · split
      · exact .inr ⟨_, _, rfl, .refl⟩
      · exact .inr ⟨_, _, rfl, .single (.heap _ _)⟩

theorem acted_handler (end_ : HandlerOutcome) (s0 : State) : ∀ (acts : List HandlerAction) (target : Option Word) (s : State),
    Actions s0 s → Actions s0 (runHandler end_ acts target s).final
  | [], target, s, h => by
    unfold runHandler
    split
    · split
      · exact h.tail (.jump _ _)
      · exact h
    · exact h
    · exact h
  | act :: rest, target, s, h => by
    unfold runHandler
    split
    · exact acted_handler end_ s0 rest _ _ (actions_writeX h _ _)
    · exact acted_handler end_ s0 rest _ _ (actions_writeF h _ _)
    · split
      · exact acted_handler end_ s0 rest _ _ (h.tail (.csr _ _ _))
      · exact acted_handler end_ s0 rest _ _ h
    · exact acted_handler end_ s0 rest _ _ h
    · rename_i a w
      rcases memRead_cases s a w with ⟨e, h1⟩ | h1
      · rw [h1]; exact h
      · rw [h1]; exact acted_handler end_ s0 rest _ _ (actions_afterRead h _)
    · rename_i a w v
      rcases memWrite_cases s a w v with ⟨e, h1⟩ | ⟨h1, ha, hp⟩
      · rw [h1]; exact h
      · rw [h1]; exact acted_handler end_ s0 rest _ _ (h.tail (.store _ _ _ _ ha hp))
    · rename_i r n
      rcases allocate_cases s n with h1 | ⟨v, t, h1, h2⟩
      · rw [h1]; exact h
      · rw [h1]; exact acted_handler end_ s0 rest _ _ (actions_writeX (h.trans h2) _ _)

theorem acted_ecall (s : State) : Acted s.startIter (execEcall s) := by
  refine ⟨_, rfl, ?_⟩
  unfold environmentCall
  split
  · exact .refl
  · unfold runService
    split
    · unfold sbrk
      rcases allocate_cases s.startIter (s.startIter.readX 10) with h | ⟨r, t, h, ht⟩
      · rw [h]; exact .refl
      · rw [h]; exact actions_writeX ht _ _
    · exact .refl
    · exact .refl
    · exact acted_handler _ _ _ _ _ (.single (.draw _))

/-- Every instruction, in every state, is the end of a behaviour that acted from the start of the iteration on. -/
theorem exec_acted (i : Instr) (s : State) : Acted s.startIter (exec i s) := by
  cases i
  case jal => exact acted_jump s _ _
  case jalr => exact acted_jump s _ _
  case ecall => exact acted_ecall s
  case fence | fenceI | wfi => exact ⟨.done s.startIter, rfl, .refl⟩
  case ebreak => exact ⟨.done _, rfl, .single (.breakpoint _)⟩
  case uret => exact ⟨.done _, rfl, Relation.ReflTransGen.tail (.single (.csr _ _ _)) (.jump _ _)⟩
  case flw => exact acted_flw _ _ _ s
  case fsw => exact acted_fsw _ _ _ s
  case fld => exact acted_fld _ _ _ s
  case fsd => exact acted_fsd _ _ _ s
  case lb | lh | lw | lbu | lhu => exact acted_load _ _ _ _ _ s
  case sb | sh | sw => exact acted_store _ _ _ _ s
  case beq | bne | blt | bge | bltu | bgeu => exact acted_branch _ s _
  case csrrw | csrrs | csrrc | csrrwi | csrrsi | csrrci => exact acted_csr _ _ _ _ s
  case fmvWX | fsgnjS | fsgnjnS | fsgnjxS => exact acted_writeS s _ _
  case fsgnjD | fsgnjnD | fsgnjxD => exact acted_withSign s _ _
  case fminS | fmaxS => exact acted_retireS s _ _
  case fminD | fmaxD => exact acted_retireD s _ _
  case feqS | fltS | fleS | feqD | fltD | fleD => exact acted_retireX s _ _
  case fmaddS | fmsubS | fnmsubS | fnmaddS | faddS | fsubS | fmulS | fdivS | fsqrtS | fcvtSW | fcvtSWu | fcvtSD =>
    exact acted_withRm _ s _ (fun r => acted_retireS s _ _)
  case fmaddD | fmsubD | fnmsubD | fnmaddD | faddD | fsubD | fmulD | fdivD | fsqrtD | fcvtDW | fcvtDWu | fcvtDS =>
    exact acted_withRm _ s _ (fun r => acted_retireD s _ _)
  case fcvtWS | fcvtWuS | fcvtWD | fcvtWuD => exact acted_withRm _ s _ (fun r => acted_retireX s _ _)
  all_goals exact acted_writesX s _ _

end Sys2Proof.Machine
end

