-- ==== Sys2Proof/Laws/Decode.lean ====
section
/-! SUPPORT. The decoder's laws (30_encoding.md R239-R246): the descriptor that accepts a word is the one the lookup
finds, and where the fields of an encoded word lie. -/

set_option Elab.async false

namespace Sys2Proof

/-! ### The lookup -/

set_option maxRecDepth 100000 in
theorem groupTables_descriptors : groupTables descriptors = referenceTables := rfl

theorem overlapFree_pairwise : ∀ ds : List Descriptor, overlapFree ds = true →
    ds.Pairwise (fun d e => d.overlaps e = false)
  | [], _ => .nil
  | d :: ds, h => by
    simp only [overlapFree, Bool.and_eq_true, List.all_eq_true, Bool.not_eq_true'] at h
    exact .cons h.1 (overlapFree_pairwise ds h.2)

theorem descriptors_pairwise : descriptors.Pairwise (fun d e => d.overlaps e = false) :=
  overlapFree_pairwise _ (by decide +kernel)

theorem overlaps_of_accepts {d e : Descriptor} {w : Word} (hd : d.accepts w = true) (he : e.accepts w = true) :
    d.overlaps e = true := by
  simp only [Descriptor.accepts, beq_iff_eq] at hd he
  simp only [Descriptor.overlaps, beq_iff_eq, ← hd, ← he]
  rw [BitVec.and_assoc, BitVec.and_assoc, BitVec.and_comm d.mask]

/-- At most one descriptor accepts a word (R243). -/
theorem accepts_unique {d e : Descriptor} (hd : d ∈ descriptors) (he : e ∈ descriptors) {w : Word}
    (h : d.accepts w = true) (h' : e.accepts w = true) : d = e := by
  obtain ⟨i, hi, rfl⟩ := List.getElem_of_mem hd
  obtain ⟨j, hj, rfl⟩ := List.getElem_of_mem he
  have hp := List.pairwise_iff_getElem.1 descriptors_pairwise
  rcases Nat.lt_trichotomy i j with hlt | heq | hgt
  · have := hp i j hi hj hlt
    rw [overlaps_of_accepts h h'] at this
    cases this
  · subst heq; rfl
  · have := hp j i hj hi hgt
    rw [overlaps_of_accepts h' h] at this
    cases this

/-- Every row of a reference table has the table's mask. -/
theorem referenceTables_masks : ∀ T ∈ referenceTables, ∀ d ∈ T.rows, d.mask = T.mask := by
  have h : (referenceTables.all fun T => T.rows.all fun d => d.mask == T.mask) = true := by decide +kernel
  simpa only [List.all_eq_true, beq_iff_eq] using h

theorem lookup_some {T : MatchTable} {w : Word} {d : Descriptor} (h : T.lookup w = some d) :
    d ∈ T.rows ∧ d.pattern = w &&& T.mask := by
  unfold MatchTable.lookup at h
  exact ⟨List.mem_of_find?_eq_some h, by simpa using List.find?_some h⟩

theorem lookupTables_mem {w : Word} {d : Descriptor} : ∀ {ts : List MatchTable}, lookupTables w ts = some d →
    ∃ T ∈ ts, d ∈ T.rows ∧ d.pattern = w &&& T.mask
  | [], h => by cases h
  | T :: ts, h => by
    unfold lookupTables at h
    split at h
    · cases h
      exact ⟨T, by simp, lookup_some (by assumption)⟩
    · obtain ⟨T', hT', h'⟩ := lookupTables_mem h
      exact ⟨T', by simp [hT'], h'⟩

theorem lookupTables_isSome {w : Word} {d : Descriptor} : ∀ {ts : List MatchTable} {T : MatchTable}, T ∈ ts →
    d ∈ T.rows → d.pattern = w &&& T.mask → (lookupTables w ts).isSome = true
  | [], _, hT, _, _ => by cases hT
  | T :: ts, T', hT, hd, hp => by
    unfold lookupTables
    split
    · rfl
    · rename_i hnone
      rcases List.mem_cons.1 hT with rfl | hT
      · unfold MatchTable.lookup at hnone
        have := List.find?_eq_none.1 hnone d hd
        simp [hp] at this
      · exact lookupTables_isSome hT hd hp

/-- The lookup finds exactly the descriptor that accepts the word (R240). -/
theorem lookup_iff (w : Word) (d : Descriptor) :
    lookupTables w referenceTables = some d ↔ d ∈ descriptors ∧ d.accepts w = true := by
  have into : ∀ e, (∃ T ∈ referenceTables, e ∈ T.rows ∧ e.pattern = w &&& T.mask) → e ∈ descriptors ∧ e.accepts w = true := by
    rintro e ⟨T, hT, he, hp⟩
    refine ⟨List.mem_flatMap.2 ⟨T, hT, he⟩, ?_⟩
    simp only [Descriptor.accepts, beq_iff_eq]
    rw [referenceTables_masks T hT e he, hp]
  constructor
  · exact fun h => into d (lookupTables_mem h)
  · rintro ⟨hd, ha⟩
    obtain ⟨T, hT, hr⟩ := List.mem_flatMap.1 hd
    have hp : d.pattern = w &&& T.mask := by
      simp only [Descriptor.accepts, beq_iff_eq] at ha
      rw [← ha, referenceTables_masks T hT d hr]
    have hsome := lookupTables_isSome hT hr hp
    cases hl : lookupTables w referenceTables with
    | none => rw [hl] at hsome; cases hsome
    | some e =>
      obtain ⟨he, hae⟩ := into e (lookupTables_mem hl)
      rw [accepts_unique he hd hae ha]

/-- An accepted word decodes to what its descriptor builds. -/
theorem decode_of_accepts {d : Descriptor} (hd : d ∈ descriptors) {w : Word} (h : d.accepts w = true) :
    decode w = some (d.build w) := by
  unfold decode
  rw [(lookup_iff w d).2 ⟨hd, h⟩]
  rfl

/-- A decoded word was accepted by a descriptor that builds the instruction. -/
theorem accepts_of_decode {w : Word} {i : Instr} (h : decode w = some i) :
    ∃ d ∈ descriptors, d.accepts w = true ∧ d.build w = i := by
  unfold decode at h
  cases hl : lookupTables w referenceTables with
  | none => rw [hl] at h; cases h
  | some d =>
    obtain ⟨hd, ha⟩ := (lookup_iff w d).1 hl
    rw [hl] at h
    exact ⟨d, hd, ha, by simpa using h⟩

/-- A word no descriptor accepts does not decode (R245). -/
theorem decode_none_iff (w : Word) : decode w = none ↔ ∀ d ∈ descriptors, d.accepts w = false := by
  constructor
  · intro h d hd
    by_contra ha
    rw [decode_of_accepts hd (by simpa using ha)] at h
    cases h
  · intro h
    cases hd : decode w with
    | none => rfl
    | some i =>
      obtain ⟨d, hm, ha, -⟩ := accepts_of_decode hd
      rw [h d hm] at ha
      cases ha

/-! ### Where a placed field lies -/

/-- The bits a field of `n` bits at bit `k` takes. -/
def fieldMask (n k : Nat) : Word := BitVec.ofNat 32 (2 ^ n - 1) <<< k

theorem place_and_fieldMask (v : BitVec n) (k : Nat) (hn : n ≤ 32) : place v k &&& fieldMask n k = place v k := by
  have h : v.setWidth 32 &&& BitVec.ofNat 32 (2 ^ n - 1) = v.setWidth 32 := by
    apply BitVec.eq_of_toNat_eq
    have hv := v.isLt
    have h2 : 2 ^ n ≤ 2 ^ 32 := Nat.pow_le_pow_right (by decide) hn
    have h3 : 0 < 2 ^ n := Nat.two_pow_pos n
    rw [BitVec.toNat_and, BitVec.toNat_setWidth, BitVec.toNat_ofNat, Nat.mod_eq_of_lt (by omega : 2 ^ n - 1 < 2 ^ 32),
      Nat.mod_eq_of_lt (by omega : v.toNat < 2 ^ 32), Nat.and_two_pow_sub_one_eq_mod, Nat.mod_eq_of_lt hv]
  unfold place fieldMask
  rw [← BitVec.shiftLeft_and_distrib, h]

/-- A field outside a mask leaves the masked bits as they are. -/
theorem place_and_mask (b m : Word) (v : BitVec n) (k : Nat) (hn : n ≤ 32) (h : fieldMask n k &&& m = 0) :
    (b ||| place v k) &&& m = b &&& m := by
  rw [← place_and_fieldMask v k hn]
  ext i hi
  have := congrArg (fun x : Word => x[i]) h
  simp at this ⊢
  cases hm : m[i]
  · simp
  · have : (fieldMask n k)[i] = false := by
      cases hf : (fieldMask n k)[i]
      · rfl
      · rw [this hf] at hm; cases hm
    simp [this]

end Sys2Proof
end

