-- ==== Sys2Proof/Laws/PerInstr.lean ====
section
/-! SUPPORT. The per-instruction law: every instruction's word holds the fixed bits of its descriptor, whatever its
operands (30_encoding.md R239, R246). -/

set_option Elab.async false
set_option maxRecDepth 100000

namespace Sys2Proof.Laws.Placed

/-- Some descriptor of the reference table accepts the instruction's word. -/
def Statement (i : Instr) : Prop := ∃ d ∈ descriptors, d.accepts (encode i) = true

theorem at_row (i : Instr) (k : Nat) (hk : k < descriptors.length)
    (h : encode i &&& descriptors[k].mask = descriptors[k].pattern) : Statement i :=
  ⟨descriptors[k], List.getElem_mem hk, by simpa [Descriptor.accepts] using h⟩

theorem length_descriptors : descriptors.length = 109 := rfl

/-! ### The fixed bits of each encoder's words -/

theorem or_and_eq_zero (a b m : Word) : (a ||| b) &&& m = 0 ↔ a &&& m = 0 ∧ b &&& m = 0 := by
  constructor
  · intro h
    constructor <;> ext i hi <;> have := congrArg (fun x : Word => x[i]) h <;> simp at this ⊢ <;>
      intro h1 <;> exact this (by simp [h1])
  · rintro ⟨h1, h2⟩
    ext i hi
    have t1 := congrArg (fun x : Word => x[i]) h1
    have t2 := congrArg (fun x : Word => x[i]) h2
    simp at t1 t2 ⊢
    rintro (h | h)
    exacts [t1 h, t2 h]

theorem encodeR_and (b m : Word) (rd rs1 rs2 : Reg) (h : (fieldMask 5 7 ||| fieldMask 5 15 ||| fieldMask 5 20) &&& m = 0) :
    encodeR b rd rs1 rs2 &&& m = b &&& m := by
  simp only [or_and_eq_zero] at h
  unfold encodeR
  rw [place_and_mask _ _ _ _ (by decide) h.2, place_and_mask _ _ _ _ (by decide) h.1.2,
    place_and_mask _ _ _ _ (by decide) h.1.1]

theorem encodeRm_and (b m : Word) (rd rs1 rs2 : Reg) (rm : BitVec 3)
    (h : (fieldMask 5 7 ||| fieldMask 5 15 ||| fieldMask 5 20) &&& m = 0) (h' : fieldMask 3 12 &&& m = 0) :
    encodeRm b rd rs1 rs2 rm &&& m = b &&& m := by
  unfold encodeRm
  rw [place_and_mask _ _ _ _ (by decide) h', encodeR_and _ _ _ _ _ h]

theorem encodeUnary_and (b m : Word) (rd rs1 : Reg) (h : (fieldMask 5 7 ||| fieldMask 5 15) &&& m = 0) :
    encodeUnary b rd rs1 &&& m = b &&& m := by
  simp only [or_and_eq_zero] at h
  unfold encodeUnary
  rw [place_and_mask _ _ _ _ (by decide) h.2, place_and_mask _ _ _ _ (by decide) h.1]

theorem encodeUnaryRm_and (b m : Word) (rd rs1 : Reg) (rm : BitVec 3)
    (h : (fieldMask 5 7 ||| fieldMask 5 15) &&& m = 0) (h' : fieldMask 3 12 &&& m = 0) :
    encodeUnaryRm b rd rs1 rm &&& m = b &&& m := by
  unfold encodeUnaryRm
  rw [place_and_mask _ _ _ _ (by decide) h', encodeUnary_and _ _ _ _ h]

theorem encodeR4_and (b m : Word) (rd rs1 rs2 rs3 : Reg) (rm : BitVec 3)
    (h : (fieldMask 5 7 ||| fieldMask 5 15 ||| fieldMask 5 20) &&& m = 0) (h' : fieldMask 3 12 &&& m = 0)
    (h'' : fieldMask 5 27 &&& m = 0) : encodeR4 b rd rs1 rs2 rs3 rm &&& m = b &&& m := by
  unfold encodeR4
  rw [place_and_mask _ _ _ _ (by decide) h'', encodeRm_and _ _ _ _ _ _ h h']

theorem encodeI_and (b m : Word) (rd rs1 : Reg) (imm : BitVec 12)
    (h : (fieldMask 5 7 ||| fieldMask 5 15 ||| fieldMask 12 20) &&& m = 0) : encodeI b rd rs1 imm &&& m = b &&& m := by
  simp only [or_and_eq_zero] at h
  unfold encodeI
  rw [place_and_mask _ _ _ _ (by decide) h.2, place_and_mask _ _ _ _ (by decide) h.1.2,
    place_and_mask _ _ _ _ (by decide) h.1.1]

theorem encodeS_and (b m : Word) (rs1 rs2 : Reg) (imm : BitVec 12)
    (h : (fieldMask 5 15 ||| fieldMask 5 20 ||| fieldMask 5 7 ||| fieldMask 7 25) &&& m = 0) :
    encodeS b rs1 rs2 imm &&& m = b &&& m := by
  simp only [or_and_eq_zero] at h
  unfold encodeS
  rw [place_and_mask _ _ _ _ (by decide) h.2, place_and_mask _ _ _ _ (by decide) h.1.2,
    place_and_mask _ _ _ _ (by decide) h.1.1.2, place_and_mask _ _ _ _ (by decide) h.1.1.1]

theorem encodeB_and (b m : Word) (rs1 rs2 : Reg) (imm : BitVec 13)
    (h : (fieldMask 5 15 ||| fieldMask 5 20 ||| fieldMask 1 7 ||| fieldMask 4 8) &&& m = 0)
    (h' : (fieldMask 6 25 ||| fieldMask 1 31) &&& m = 0) : encodeB b rs1 rs2 imm &&& m = b &&& m := by
  simp only [or_and_eq_zero] at h h'
  unfold encodeB
  rw [place_and_mask _ _ _ _ (by decide) h'.2, place_and_mask _ _ _ _ (by decide) h'.1,
    place_and_mask _ _ _ _ (by decide) h.2, place_and_mask _ _ _ _ (by decide) h.1.2,
    place_and_mask _ _ _ _ (by decide) h.1.1.2, place_and_mask _ _ _ _ (by decide) h.1.1.1]

theorem encodeU_and (b m : Word) (rd : Reg) (imm : Word) (h : (fieldMask 5 7 ||| fieldMask 20 12) &&& m = 0) :
    encodeU b rd imm &&& m = b &&& m := by
  simp only [or_and_eq_zero] at h
  unfold encodeU
  rw [place_and_mask _ _ _ _ (by decide) h.2, place_and_mask _ _ _ _ (by decide) h.1]

theorem encodeJ_and (b m : Word) (rd : Reg) (imm : BitVec 21)
    (h : (fieldMask 5 7 ||| fieldMask 8 12 ||| fieldMask 1 20) &&& m = 0)
    (h' : (fieldMask 10 21 ||| fieldMask 1 31) &&& m = 0) : encodeJ b rd imm &&& m = b &&& m := by
  simp only [or_and_eq_zero] at h h'
  unfold encodeJ
  rw [place_and_mask _ _ _ _ (by decide) h'.2, place_and_mask _ _ _ _ (by decide) h'.1,
    place_and_mask _ _ _ _ (by decide) h.2, place_and_mask _ _ _ _ (by decide) h.1.2,
    place_and_mask _ _ _ _ (by decide) h.1.1]

theorem encodeFence_and (b m : Word) (pred succ : BitVec 4) (h : (fieldMask 4 24 ||| fieldMask 4 20) &&& m = 0) :
    encodeFence b pred succ &&& m = b &&& m := by
  simp only [or_and_eq_zero] at h
  unfold encodeFence
  rw [place_and_mask _ _ _ _ (by decide) h.2, place_and_mask _ _ _ _ (by decide) h.1]

/-! ### One lemma per constructor -/

theorem lui (rd : Reg) (imm : Word) : Statement (.lui rd imm) :=
  at_row _ 106 (by decide) ((encodeU_and 0x00000037 0x0000007F rd imm (by decide)).trans (by decide))

theorem auipc (rd : Reg) (imm : Word) : Statement (.auipc rd imm) :=
  at_row _ 107 (by decide) ((encodeU_and 0x00000017 0x0000007F rd imm (by decide)).trans (by decide))

theorem addi (rd : Reg) (rs1 : Reg) (imm : BitVec 12) : Statement (.addi rd rs1 imm) :=
  at_row _ 67 (by decide) ((encodeI_and 0x00000013 0x0000707F rd rs1 imm (by decide)).trans (by decide))

theorem slti (rd : Reg) (rs1 : Reg) (imm : BitVec 12) : Statement (.slti rd rs1 imm) :=
  at_row _ 68 (by decide) ((encodeI_and 0x00002013 0x0000707F rd rs1 imm (by decide)).trans (by decide))

theorem sltiu (rd : Reg) (rs1 : Reg) (imm : BitVec 12) : Statement (.sltiu rd rs1 imm) :=
  at_row _ 69 (by decide) ((encodeI_and 0x00003013 0x0000707F rd rs1 imm (by decide)).trans (by decide))

theorem xori (rd : Reg) (rs1 : Reg) (imm : BitVec 12) : Statement (.xori rd rs1 imm) :=
  at_row _ 70 (by decide) ((encodeI_and 0x00004013 0x0000707F rd rs1 imm (by decide)).trans (by decide))

theorem ori (rd : Reg) (rs1 : Reg) (imm : BitVec 12) : Statement (.ori rd rs1 imm) :=
  at_row _ 71 (by decide) ((encodeI_and 0x00006013 0x0000707F rd rs1 imm (by decide)).trans (by decide))

theorem andi (rd : Reg) (rs1 : Reg) (imm : BitVec 12) : Statement (.andi rd rs1 imm) :=
  at_row _ 72 (by decide) ((encodeI_and 0x00007013 0x0000707F rd rs1 imm (by decide)).trans (by decide))

theorem slli (rd : Reg) (rs1 : Reg) (shamt : BitVec 5) : Statement (.slli rd rs1 shamt) :=
  at_row _ 22 (by decide) ((encodeR_and 0x00001013 0xFE00707F rd rs1 shamt (by decide)).trans (by decide))

theorem srli (rd : Reg) (rs1 : Reg) (shamt : BitVec 5) : Statement (.srli rd rs1 shamt) :=
  at_row _ 23 (by decide) ((encodeR_and 0x00005013 0xFE00707F rd rs1 shamt (by decide)).trans (by decide))

theorem srai (rd : Reg) (rs1 : Reg) (shamt : BitVec 5) : Statement (.srai rd rs1 shamt) :=
  at_row _ 24 (by decide) ((encodeR_and 0x40005013 0xFE00707F rd rs1 shamt (by decide)).trans (by decide))

theorem add (rd : Reg) (rs1 : Reg) (rs2 : Reg) : Statement (.add rd rs1 rs2) :=
  at_row _ 25 (by decide) ((encodeR_and 0x00000033 0xFE00707F rd rs1 rs2 (by decide)).trans (by decide))

theorem sub (rd : Reg) (rs1 : Reg) (rs2 : Reg) : Statement (.sub rd rs1 rs2) :=
  at_row _ 26 (by decide) ((encodeR_and 0x40000033 0xFE00707F rd rs1 rs2 (by decide)).trans (by decide))

theorem sll (rd : Reg) (rs1 : Reg) (rs2 : Reg) : Statement (.sll rd rs1 rs2) :=
  at_row _ 27 (by decide) ((encodeR_and 0x00001033 0xFE00707F rd rs1 rs2 (by decide)).trans (by decide))

theorem slt (rd : Reg) (rs1 : Reg) (rs2 : Reg) : Statement (.slt rd rs1 rs2) :=
  at_row _ 28 (by decide) ((encodeR_and 0x00002033 0xFE00707F rd rs1 rs2 (by decide)).trans (by decide))

theorem sltu (rd : Reg) (rs1 : Reg) (rs2 : Reg) : Statement (.sltu rd rs1 rs2) :=
  at_row _ 29 (by decide) ((encodeR_and 0x00003033 0xFE00707F rd rs1 rs2 (by decide)).trans (by decide))

theorem xor (rd : Reg) (rs1 : Reg) (rs2 : Reg) : Statement (.xor rd rs1 rs2) :=
  at_row _ 30 (by decide) ((encodeR_and 0x00004033 0xFE00707F rd rs1 rs2 (by decide)).trans (by decide))

theorem srl (rd : Reg) (rs1 : Reg) (rs2 : Reg) : Statement (.srl rd rs1 rs2) :=
  at_row _ 31 (by decide) ((encodeR_and 0x00005033 0xFE00707F rd rs1 rs2 (by decide)).trans (by decide))

theorem sra (rd : Reg) (rs1 : Reg) (rs2 : Reg) : Statement (.sra rd rs1 rs2) :=
  at_row _ 32 (by decide) ((encodeR_and 0x40005033 0xFE00707F rd rs1 rs2 (by decide)).trans (by decide))

theorem or (rd : Reg) (rs1 : Reg) (rs2 : Reg) : Statement (.or rd rs1 rs2) :=
  at_row _ 33 (by decide) ((encodeR_and 0x00006033 0xFE00707F rd rs1 rs2 (by decide)).trans (by decide))

theorem and (rd : Reg) (rs1 : Reg) (rs2 : Reg) : Statement (.and rd rs1 rs2) :=
  at_row _ 34 (by decide) ((encodeR_and 0x00007033 0xFE00707F rd rs1 rs2 (by decide)).trans (by decide))

theorem jal (rd : Reg) (imm : BitVec 21) : Statement (.jal rd imm) :=
  at_row _ 108 (by decide) ((encodeJ_and 0x0000006F 0x0000007F rd imm (by decide) (by decide)).trans (by decide))

theorem jalr (rd : Reg) (rs1 : Reg) (imm : BitVec 12) : Statement (.jalr rd rs1 imm) :=
  at_row _ 73 (by decide) ((encodeI_and 0x00000067 0x0000707F rd rs1 imm (by decide)).trans (by decide))

theorem beq (rs1 : Reg) (rs2 : Reg) (imm : BitVec 13) : Statement (.beq rs1 rs2 imm) :=
  at_row _ 74 (by decide) ((encodeB_and 0x00000063 0x0000707F rs1 rs2 imm (by decide) (by decide)).trans (by decide))

theorem bne (rs1 : Reg) (rs2 : Reg) (imm : BitVec 13) : Statement (.bne rs1 rs2 imm) :=
  at_row _ 75 (by decide) ((encodeB_and 0x00001063 0x0000707F rs1 rs2 imm (by decide) (by decide)).trans (by decide))

theorem blt (rs1 : Reg) (rs2 : Reg) (imm : BitVec 13) : Statement (.blt rs1 rs2 imm) :=
  at_row _ 76 (by decide) ((encodeB_and 0x00004063 0x0000707F rs1 rs2 imm (by decide) (by decide)).trans (by decide))

theorem bge (rs1 : Reg) (rs2 : Reg) (imm : BitVec 13) : Statement (.bge rs1 rs2 imm) :=
  at_row _ 77 (by decide) ((encodeB_and 0x00005063 0x0000707F rs1 rs2 imm (by decide) (by decide)).trans (by decide))

theorem bltu (rs1 : Reg) (rs2 : Reg) (imm : BitVec 13) : Statement (.bltu rs1 rs2 imm) :=
  at_row _ 78 (by decide) ((encodeB_and 0x00006063 0x0000707F rs1 rs2 imm (by decide) (by decide)).trans (by decide))

theorem bgeu (rs1 : Reg) (rs2 : Reg) (imm : BitVec 13) : Statement (.bgeu rs1 rs2 imm) :=
  at_row _ 79 (by decide) ((encodeB_and 0x00007063 0x0000707F rs1 rs2 imm (by decide) (by decide)).trans (by decide))

theorem lb (rd : Reg) (rs1 : Reg) (imm : BitVec 12) : Statement (.lb rd rs1 imm) :=
  at_row _ 80 (by decide) ((encodeI_and 0x00000003 0x0000707F rd rs1 imm (by decide)).trans (by decide))

theorem lh (rd : Reg) (rs1 : Reg) (imm : BitVec 12) : Statement (.lh rd rs1 imm) :=
  at_row _ 81 (by decide) ((encodeI_and 0x00001003 0x0000707F rd rs1 imm (by decide)).trans (by decide))

theorem lw (rd : Reg) (rs1 : Reg) (imm : BitVec 12) : Statement (.lw rd rs1 imm) :=
  at_row _ 82 (by decide) ((encodeI_and 0x00002003 0x0000707F rd rs1 imm (by decide)).trans (by decide))

theorem lbu (rd : Reg) (rs1 : Reg) (imm : BitVec 12) : Statement (.lbu rd rs1 imm) :=
  at_row _ 83 (by decide) ((encodeI_and 0x00004003 0x0000707F rd rs1 imm (by decide)).trans (by decide))

theorem lhu (rd : Reg) (rs1 : Reg) (imm : BitVec 12) : Statement (.lhu rd rs1 imm) :=
  at_row _ 84 (by decide) ((encodeI_and 0x00005003 0x0000707F rd rs1 imm (by decide)).trans (by decide))

theorem sb (rs1 : Reg) (rs2 : Reg) (imm : BitVec 12) : Statement (.sb rs1 rs2 imm) :=
  at_row _ 85 (by decide) ((encodeS_and 0x00000023 0x0000707F rs1 rs2 imm (by decide)).trans (by decide))

theorem sh (rs1 : Reg) (rs2 : Reg) (imm : BitVec 12) : Statement (.sh rs1 rs2 imm) :=
  at_row _ 86 (by decide) ((encodeS_and 0x00001023 0x0000707F rs1 rs2 imm (by decide)).trans (by decide))

theorem sw (rs1 : Reg) (rs2 : Reg) (imm : BitVec 12) : Statement (.sw rs1 rs2 imm) :=
  at_row _ 87 (by decide) ((encodeS_and 0x00002023 0x0000707F rs1 rs2 imm (by decide)).trans (by decide))

theorem mul (rd : Reg) (rs1 : Reg) (rs2 : Reg) : Statement (.mul rd rs1 rs2) :=
  at_row _ 35 (by decide) ((encodeR_and 0x02000033 0xFE00707F rd rs1 rs2 (by decide)).trans (by decide))

theorem mulh (rd : Reg) (rs1 : Reg) (rs2 : Reg) : Statement (.mulh rd rs1 rs2) :=
  at_row _ 36 (by decide) ((encodeR_and 0x02001033 0xFE00707F rd rs1 rs2 (by decide)).trans (by decide))

theorem mulhsu (rd : Reg) (rs1 : Reg) (rs2 : Reg) : Statement (.mulhsu rd rs1 rs2) :=
  at_row _ 37 (by decide) ((encodeR_and 0x02002033 0xFE00707F rd rs1 rs2 (by decide)).trans (by decide))

theorem mulhu (rd : Reg) (rs1 : Reg) (rs2 : Reg) : Statement (.mulhu rd rs1 rs2) :=
  at_row _ 38 (by decide) ((encodeR_and 0x02003033 0xFE00707F rd rs1 rs2 (by decide)).trans (by decide))

theorem div (rd : Reg) (rs1 : Reg) (rs2 : Reg) : Statement (.div rd rs1 rs2) :=
  at_row _ 39 (by decide) ((encodeR_and 0x02004033 0xFE00707F rd rs1 rs2 (by decide)).trans (by decide))

theorem divu (rd : Reg) (rs1 : Reg) (rs2 : Reg) : Statement (.divu rd rs1 rs2) :=
  at_row _ 40 (by decide) ((encodeR_and 0x02005033 0xFE00707F rd rs1 rs2 (by decide)).trans (by decide))

theorem rem (rd : Reg) (rs1 : Reg) (rs2 : Reg) : Statement (.rem rd rs1 rs2) :=
  at_row _ 41 (by decide) ((encodeR_and 0x02006033 0xFE00707F rd rs1 rs2 (by decide)).trans (by decide))

theorem remu (rd : Reg) (rs1 : Reg) (rs2 : Reg) : Statement (.remu rd rs1 rs2) :=
  at_row _ 42 (by decide) ((encodeR_and 0x02007033 0xFE00707F rd rs1 rs2 (by decide)).trans (by decide))

theorem fence (pred : BitVec 4) (succ : BitVec 4) : Statement (.fence pred succ) :=
  at_row _ 5 (by decide) ((encodeFence_and 0x0000000F 0xF00FFFFF pred succ (by decide)).trans (by decide))

theorem fenceI : Statement .fenceI := at_row _ 0 (by decide) (by decide)

theorem ecall : Statement .ecall := at_row _ 1 (by decide) (by decide)

theorem ebreak : Statement .ebreak := at_row _ 2 (by decide) (by decide)

theorem uret : Statement .uret := at_row _ 3 (by decide) (by decide)

theorem wfi : Statement .wfi := at_row _ 4 (by decide) (by decide)

theorem csrrw (rd : Reg) (csr : CsrNum) (rs1 : Reg) : Statement (.csrrw rd csr rs1) :=
  at_row _ 88 (by decide) ((encodeI_and 0x00001073 0x0000707F rd rs1 csr (by decide)).trans (by decide))

theorem csrrs (rd : Reg) (csr : CsrNum) (rs1 : Reg) : Statement (.csrrs rd csr rs1) :=
  at_row _ 89 (by decide) ((encodeI_and 0x00002073 0x0000707F rd rs1 csr (by decide)).trans (by decide))

theorem csrrc (rd : Reg) (csr : CsrNum) (rs1 : Reg) : Statement (.csrrc rd csr rs1) :=
  at_row _ 90 (by decide) ((encodeI_and 0x00003073 0x0000707F rd rs1 csr (by decide)).trans (by decide))

theorem csrrwi (rd : Reg) (csr : CsrNum) (uimm : BitVec 5) : Statement (.csrrwi rd csr uimm) :=
  at_row _ 91 (by decide) ((encodeI_and 0x00005073 0x0000707F rd uimm csr (by decide)).trans (by decide))

theorem csrrsi (rd : Reg) (csr : CsrNum) (uimm : BitVec 5) : Statement (.csrrsi rd csr uimm) :=
  at_row _ 92 (by decide) ((encodeI_and 0x00006073 0x0000707F rd uimm csr (by decide)).trans (by decide))

theorem csrrci (rd : Reg) (csr : CsrNum) (uimm : BitVec 5) : Statement (.csrrci rd csr uimm) :=
  at_row _ 93 (by decide) ((encodeI_and 0x00007073 0x0000707F rd uimm csr (by decide)).trans (by decide))

theorem flw (rd : Reg) (rs1 : Reg) (imm : BitVec 12) : Statement (.flw rd rs1 imm) :=
  at_row _ 94 (by decide) ((encodeI_and 0x00002007 0x0000707F rd rs1 imm (by decide)).trans (by decide))

theorem fsw (rs1 : Reg) (rs2 : Reg) (imm : BitVec 12) : Statement (.fsw rs1 rs2 imm) :=
  at_row _ 95 (by decide) ((encodeS_and 0x00002027 0x0000707F rs1 rs2 imm (by decide)).trans (by decide))

theorem fmaddS (rd : Reg) (rs1 : Reg) (rs2 : Reg) (rs3 : Reg) (rm : BitVec 3) : Statement (.fmaddS rd rs1 rs2 rs3 rm) :=
  at_row _ 98 (by decide) ((encodeR4_and 0x00000043 0x0600007F rd rs1 rs2 rs3 rm (by decide) (by decide) (by decide)).trans (by decide))

theorem fmsubS (rd : Reg) (rs1 : Reg) (rs2 : Reg) (rs3 : Reg) (rm : BitVec 3) : Statement (.fmsubS rd rs1 rs2 rs3 rm) :=
  at_row _ 99 (by decide) ((encodeR4_and 0x00000047 0x0600007F rd rs1 rs2 rs3 rm (by decide) (by decide) (by decide)).trans (by decide))

theorem fnmsubS (rd : Reg) (rs1 : Reg) (rs2 : Reg) (rs3 : Reg) (rm : BitVec 3) : Statement (.fnmsubS rd rs1 rs2 rs3 rm) :=
  at_row _ 100 (by decide) ((encodeR4_and 0x0000004B 0x0600007F rd rs1 rs2 rs3 rm (by decide) (by decide) (by decide)).trans (by decide))

theorem fnmaddS (rd : Reg) (rs1 : Reg) (rs2 : Reg) (rs3 : Reg) (rm : BitVec 3) : Statement (.fnmaddS rd rs1 rs2 rs3 rm) :=
  at_row _ 101 (by decide) ((encodeR4_and 0x0000004F 0x0600007F rd rs1 rs2 rs3 rm (by decide) (by decide) (by decide)).trans (by decide))

theorem faddS (rd : Reg) (rs1 : Reg) (rs2 : Reg) (rm : BitVec 3) : Statement (.faddS rd rs1 rs2 rm) :=
  at_row _ 59 (by decide) ((encodeRm_and 0x00000053 0xFE00007F rd rs1 rs2 rm (by decide) (by decide)).trans (by decide))

theorem fsubS (rd : Reg) (rs1 : Reg) (rs2 : Reg) (rm : BitVec 3) : Statement (.fsubS rd rs1 rs2 rm) :=
  at_row _ 60 (by decide) ((encodeRm_and 0x08000053 0xFE00007F rd rs1 rs2 rm (by decide) (by decide)).trans (by decide))

theorem fmulS (rd : Reg) (rs1 : Reg) (rs2 : Reg) (rm : BitVec 3) : Statement (.fmulS rd rs1 rs2 rm) :=
  at_row _ 61 (by decide) ((encodeRm_and 0x10000053 0xFE00007F rd rs1 rs2 rm (by decide) (by decide)).trans (by decide))

theorem fdivS (rd : Reg) (rs1 : Reg) (rs2 : Reg) (rm : BitVec 3) : Statement (.fdivS rd rs1 rs2 rm) :=
  at_row _ 62 (by decide) ((encodeRm_and 0x18000053 0xFE00007F rd rs1 rs2 rm (by decide) (by decide)).trans (by decide))

theorem fsqrtS (rd : Reg) (rs1 : Reg) (rm : BitVec 3) : Statement (.fsqrtS rd rs1 rm) :=
  at_row _ 10 (by decide) ((encodeUnaryRm_and 0x58000053 0xFFF0007F rd rs1 rm (by decide) (by decide)).trans (by decide))

theorem fsgnjS (rd : Reg) (rs1 : Reg) (rs2 : Reg) : Statement (.fsgnjS rd rs1 rs2) :=
  at_row _ 43 (by decide) ((encodeR_and 0x20000053 0xFE00707F rd rs1 rs2 (by decide)).trans (by decide))

theorem fsgnjnS (rd : Reg) (rs1 : Reg) (rs2 : Reg) : Statement (.fsgnjnS rd rs1 rs2) :=
  at_row _ 44 (by decide) ((encodeR_and 0x20001053 0xFE00707F rd rs1 rs2 (by decide)).trans (by decide))

theorem fsgnjxS (rd : Reg) (rs1 : Reg) (rs2 : Reg) : Statement (.fsgnjxS rd rs1 rs2) :=
  at_row _ 45 (by decide) ((encodeR_and 0x20002053 0xFE00707F rd rs1 rs2 (by decide)).trans (by decide))

theorem fminS (rd : Reg) (rs1 : Reg) (rs2 : Reg) : Statement (.fminS rd rs1 rs2) :=
  at_row _ 46 (by decide) ((encodeR_and 0x28000053 0xFE00707F rd rs1 rs2 (by decide)).trans (by decide))

theorem fmaxS (rd : Reg) (rs1 : Reg) (rs2 : Reg) : Statement (.fmaxS rd rs1 rs2) :=
  at_row _ 47 (by decide) ((encodeR_and 0x28001053 0xFE00707F rd rs1 rs2 (by decide)).trans (by decide))

theorem feqS (rd : Reg) (rs1 : Reg) (rs2 : Reg) : Statement (.feqS rd rs1 rs2) :=
  at_row _ 48 (by decide) ((encodeR_and 0xA0002053 0xFE00707F rd rs1 rs2 (by decide)).trans (by decide))

theorem fltS (rd : Reg) (rs1 : Reg) (rs2 : Reg) : Statement (.fltS rd rs1 rs2) :=
  at_row _ 49 (by decide) ((encodeR_and 0xA0001053 0xFE00707F rd rs1 rs2 (by decide)).trans (by decide))

theorem fleS (rd : Reg) (rs1 : Reg) (rs2 : Reg) : Statement (.fleS rd rs1 rs2) :=
  at_row _ 50 (by decide) ((encodeR_and 0xA0000053 0xFE00707F rd rs1 rs2 (by decide)).trans (by decide))

theorem fclassS (rd : Reg) (rs1 : Reg) : Statement (.fclassS rd rs1) :=
  at_row _ 6 (by decide) ((encodeUnary_and 0xE0001053 0xFFF0707F rd rs1 (by decide)).trans (by decide))

theorem fcvtWS (rd : Reg) (rs1 : Reg) (rm : BitVec 3) : Statement (.fcvtWS rd rs1 rm) :=
  at_row _ 11 (by decide) ((encodeUnaryRm_and 0xC0000053 0xFFF0007F rd rs1 rm (by decide) (by decide)).trans (by decide))

theorem fcvtWuS (rd : Reg) (rs1 : Reg) (rm : BitVec 3) : Statement (.fcvtWuS rd rs1 rm) :=
  at_row _ 12 (by decide) ((encodeUnaryRm_and 0xC0100053 0xFFF0007F rd rs1 rm (by decide) (by decide)).trans (by decide))

theorem fcvtSW (rd : Reg) (rs1 : Reg) (rm : BitVec 3) : Statement (.fcvtSW rd rs1 rm) :=
  at_row _ 13 (by decide) ((encodeUnaryRm_and 0xD0000053 0xFFF0007F rd rs1 rm (by decide) (by decide)).trans (by decide))

theorem fcvtSWu (rd : Reg) (rs1 : Reg) (rm : BitVec 3) : Statement (.fcvtSWu rd rs1 rm) :=
  at_row _ 14 (by decide) ((encodeUnaryRm_and 0xD0100053 0xFFF0007F rd rs1 rm (by decide) (by decide)).trans (by decide))

theorem fmvXW (rd : Reg) (rs1 : Reg) : Statement (.fmvXW rd rs1) :=
  at_row _ 7 (by decide) ((encodeUnary_and 0xE0000053 0xFFF0707F rd rs1 (by decide)).trans (by decide))

theorem fmvWX (rd : Reg) (rs1 : Reg) : Statement (.fmvWX rd rs1) :=
  at_row _ 8 (by decide) ((encodeUnary_and 0xF0000053 0xFFF0707F rd rs1 (by decide)).trans (by decide))

theorem fld (rd : Reg) (rs1 : Reg) (imm : BitVec 12) : Statement (.fld rd rs1 imm) :=
  at_row _ 96 (by decide) ((encodeI_and 0x00003007 0x0000707F rd rs1 imm (by decide)).trans (by decide))

theorem fsd (rs1 : Reg) (rs2 : Reg) (imm : BitVec 12) : Statement (.fsd rs1 rs2 imm) :=
  at_row _ 97 (by decide) ((encodeS_and 0x00003027 0x0000707F rs1 rs2 imm (by decide)).trans (by decide))

theorem fmaddD (rd : Reg) (rs1 : Reg) (rs2 : Reg) (rs3 : Reg) (rm : BitVec 3) : Statement (.fmaddD rd rs1 rs2 rs3 rm) :=
  at_row _ 102 (by decide) ((encodeR4_and 0x02000043 0x0600007F rd rs1 rs2 rs3 rm (by decide) (by decide) (by decide)).trans (by decide))

theorem fmsubD (rd : Reg) (rs1 : Reg) (rs2 : Reg) (rs3 : Reg) (rm : BitVec 3) : Statement (.fmsubD rd rs1 rs2 rs3 rm) :=
  at_row _ 103 (by decide) ((encodeR4_and 0x02000047 0x0600007F rd rs1 rs2 rs3 rm (by decide) (by decide) (by decide)).trans (by decide))

theorem fnmsubD (rd : Reg) (rs1 : Reg) (rs2 : Reg) (rs3 : Reg) (rm : BitVec 3) : Statement (.fnmsubD rd rs1 rs2 rs3 rm) :=
  at_row _ 104 (by decide) ((encodeR4_and 0x0200004B 0x0600007F rd rs1 rs2 rs3 rm (by decide) (by decide) (by decide)).trans (by decide))

theorem fnmaddD (rd : Reg) (rs1 : Reg) (rs2 : Reg) (rs3 : Reg) (rm : BitVec 3) : Statement (.fnmaddD rd rs1 rs2 rs3 rm) :=
  at_row _ 105 (by decide) ((encodeR4_and 0x0200004F 0x0600007F rd rs1 rs2 rs3 rm (by decide) (by decide) (by decide)).trans (by decide))

theorem faddD (rd : Reg) (rs1 : Reg) (rs2 : Reg) (rm : BitVec 3) : Statement (.faddD rd rs1 rs2 rm) :=
  at_row _ 63 (by decide) ((encodeRm_and 0x02000053 0xFE00007F rd rs1 rs2 rm (by decide) (by decide)).trans (by decide))

theorem fsubD (rd : Reg) (rs1 : Reg) (rs2 : Reg) (rm : BitVec 3) : Statement (.fsubD rd rs1 rs2 rm) :=
  at_row _ 64 (by decide) ((encodeRm_and 0x0A000053 0xFE00007F rd rs1 rs2 rm (by decide) (by decide)).trans (by decide))

theorem fmulD (rd : Reg) (rs1 : Reg) (rs2 : Reg) (rm : BitVec 3) : Statement (.fmulD rd rs1 rs2 rm) :=
  at_row _ 65 (by decide) ((encodeRm_and 0x12000053 0xFE00007F rd rs1 rs2 rm (by decide) (by decide)).trans (by decide))

theorem fdivD (rd : Reg) (rs1 : Reg) (rs2 : Reg) (rm : BitVec 3) : Statement (.fdivD rd rs1 rs2 rm) :=
  at_row _ 66 (by decide) ((encodeRm_and 0x1A000053 0xFE00007F rd rs1 rs2 rm (by decide) (by decide)).trans (by decide))

theorem fsqrtD (rd : Reg) (rs1 : Reg) (rm : BitVec 3) : Statement (.fsqrtD rd rs1 rm) :=
  at_row _ 15 (by decide) ((encodeUnaryRm_and 0x5A000053 0xFFF0007F rd rs1 rm (by decide) (by decide)).trans (by decide))

theorem fsgnjD (rd : Reg) (rs1 : Reg) (rs2 : Reg) : Statement (.fsgnjD rd rs1 rs2) :=
  at_row _ 51 (by decide) ((encodeR_and 0x22000053 0xFE00707F rd rs1 rs2 (by decide)).trans (by decide))

theorem fsgnjnD (rd : Reg) (rs1 : Reg) (rs2 : Reg) : Statement (.fsgnjnD rd rs1 rs2) :=
  at_row _ 52 (by decide) ((encodeR_and 0x22001053 0xFE00707F rd rs1 rs2 (by decide)).trans (by decide))

theorem fsgnjxD (rd : Reg) (rs1 : Reg) (rs2 : Reg) : Statement (.fsgnjxD rd rs1 rs2) :=
  at_row _ 53 (by decide) ((encodeR_and 0x22002053 0xFE00707F rd rs1 rs2 (by decide)).trans (by decide))

theorem fminD (rd : Reg) (rs1 : Reg) (rs2 : Reg) : Statement (.fminD rd rs1 rs2) :=
  at_row _ 54 (by decide) ((encodeR_and 0x2A000053 0xFE00707F rd rs1 rs2 (by decide)).trans (by decide))

theorem fmaxD (rd : Reg) (rs1 : Reg) (rs2 : Reg) : Statement (.fmaxD rd rs1 rs2) :=
  at_row _ 55 (by decide) ((encodeR_and 0x2A001053 0xFE00707F rd rs1 rs2 (by decide)).trans (by decide))

theorem fcvtSD (rd : Reg) (rs1 : Reg) (rm : BitVec 3) : Statement (.fcvtSD rd rs1 rm) :=
  at_row _ 16 (by decide) ((encodeUnaryRm_and 0x40100053 0xFFF0007F rd rs1 rm (by decide) (by decide)).trans (by decide))

theorem fcvtDS (rd : Reg) (rs1 : Reg) (rm : BitVec 3) : Statement (.fcvtDS rd rs1 rm) :=
  at_row _ 17 (by decide) ((encodeUnaryRm_and 0x42000053 0xFFF0007F rd rs1 rm (by decide) (by decide)).trans (by decide))

theorem feqD (rd : Reg) (rs1 : Reg) (rs2 : Reg) : Statement (.feqD rd rs1 rs2) :=
  at_row _ 56 (by decide) ((encodeR_and 0xA2002053 0xFE00707F rd rs1 rs2 (by decide)).trans (by decide))

theorem fltD (rd : Reg) (rs1 : Reg) (rs2 : Reg) : Statement (.fltD rd rs1 rs2) :=
  at_row _ 57 (by decide) ((encodeR_and 0xA2001053 0xFE00707F rd rs1 rs2 (by decide)).trans (by decide))

theorem fleD (rd : Reg) (rs1 : Reg) (rs2 : Reg) : Statement (.fleD rd rs1 rs2) :=
  at_row _ 58 (by decide) ((encodeR_and 0xA2000053 0xFE00707F rd rs1 rs2 (by decide)).trans (by decide))

theorem fclassD (rd : Reg) (rs1 : Reg) : Statement (.fclassD rd rs1) :=
  at_row _ 9 (by decide) ((encodeUnary_and 0xE2001053 0xFFF0707F rd rs1 (by decide)).trans (by decide))

theorem fcvtWD (rd : Reg) (rs1 : Reg) (rm : BitVec 3) : Statement (.fcvtWD rd rs1 rm) :=
  at_row _ 18 (by decide) ((encodeUnaryRm_and 0xC2000053 0xFFF0007F rd rs1 rm (by decide) (by decide)).trans (by decide))

theorem fcvtWuD (rd : Reg) (rs1 : Reg) (rm : BitVec 3) : Statement (.fcvtWuD rd rs1 rm) :=
  at_row _ 19 (by decide) ((encodeUnaryRm_and 0xC2100053 0xFFF0007F rd rs1 rm (by decide) (by decide)).trans (by decide))

theorem fcvtDW (rd : Reg) (rs1 : Reg) (rm : BitVec 3) : Statement (.fcvtDW rd rs1 rm) :=
  at_row _ 20 (by decide) ((encodeUnaryRm_and 0xD2000053 0xFFF0007F rd rs1 rm (by decide) (by decide)).trans (by decide))

theorem fcvtDWu (rd : Reg) (rs1 : Reg) (rm : BitVec 3) : Statement (.fcvtDWu rd rs1 rm) :=
  at_row _ 21 (by decide) ((encodeUnaryRm_and 0xD2100053 0xFFF0007F rd rs1 rm (by decide) (by decide)).trans (by decide))

end Sys2Proof.Laws.Placed
end

