-- ==== Sys2Proof/Laws/Text.lean ====
section
/-! SUPPORT. What a store leaves in TEXT: the statements it touches are present, every other statement is as before. -/

namespace Sys2Proof.Machine

/-- The statements a byte-wise store touches are present afterwards, no other changes, and none is lost. -/
theorem State.setBytes_text (s : State) (a v : Word) (n : Nat) (hn : n ≤ 4) :
    (∀ b : Word, Within a n b → executableAt s.cfg.memMap b = true →
      (storeFind (s.setBytes a v n).text (textKey b)).isSome = true) ∧
    (∀ k : Nat, (∀ b : Word, Within a n b → executableAt s.cfg.memMap b = true → textKey b ≠ k) →
      storeFind (s.setBytes a v n).text k = storeFind s.text k) ∧
    (∀ k, (storeFind s.text k).isSome = true → (storeFind (s.setBytes a v n).text k).isSome = true) := by
  induction n with
  | zero =>
    refine ⟨fun b hb => absurd hb (by simp [Within]), fun k _ => rfl, fun k h => h⟩
  | succ n ih =>
    obtain ⟨i1, i2, i3⟩ := ih (by omega)
    have hw : ∀ b : Word, Within a (n+1) b ↔ Within a n b ∨ b = a + BitVec.ofNat 32 n := by
      intro b
      unfold Within
      constructor
      · intro h
        rcases Nat.lt_or_ge (b - a).toNat n with h1 | h1
        · exact .inl h1
        · right
          exact (sub_add_ofNat a b (by omega)).symm
      · rintro (h | h)
        · omega
        · subst h
          have : (a + BitVec.ofNat 32 n - a) = BitVec.ofNat 32 n := by
            rw [BitVec.add_comm, BitVec.add_sub_cancel]
          rw [this, BitVec.toNat_ofNat, Nat.mod_eq_of_lt (by omega)]
          omega
    set c := a + BitVec.ofNat 32 n with hc
    have hcfg : (s.setBytes a v n).cfg = s.cfg := by simp
    by_cases he : executableAt s.cfg.memMap c = true
    · have ht : (s.setBytes a v (n+1)).text = storePut (s.setBytes a v n).text (textKey c)
          (withByte ((storeFind (s.setBytes a v n).text (textKey c)).getD 0) (c.toNat % 4) (byteOf v n)) := by
        simp only [State.setBytes, State.setByte, hcfg, he, if_true, ← hc]
      refine ⟨?_, ?_, ?_⟩
      · intro b hb hbe
        rw [ht, storeFind_put]
        split
        · rfl
        · rename_i hne
          rcases (hw b).mp hb with h | h
          · exact i1 b h hbe
          · subst h; exact absurd rfl hne
      · intro k hk
        rw [ht, storeFind_put]
        split
        · rename_i hkc
          exact absurd hkc.symm (hk c ((hw c).mpr (.inr rfl)) he)
        · exact i2 k (fun b hb => hk b ((hw b).mpr (.inl hb)))
      · intro k hk
        rw [ht, storeFind_put]
        split
        · rfl
        · exact i3 k hk
    · have ht : (s.setBytes a v (n+1)).text = (s.setBytes a v n).text := by
        simp only [State.setBytes, State.setByte, hcfg, ← hc]
        rw [if_neg he]
      refine ⟨?_, ?_, ?_⟩
      · intro b hb hbe
        rw [ht]
        rcases (hw b).mp hb with h | h
        · exact i1 b h hbe
        · subst h; exact absurd hbe he
      · intro k hk
        rw [ht]
        exact i2 k (fun b hb => hk b ((hw b).mpr (.inl hb)))
      · intro k hk
        rw [ht]; exact i3 k hk

theorem Memory.wf_keysRise {m : List Host.Cell} (h : Memory.wf m = true) : keysRise m = true := ((Memory.wf_iff m).mp h).1

/-- The statements a raw write touches are present afterwards, and no other changes (R162). -/
theorem State.rawWrite_text (s : State) (a v : Word) (w : Width) :
    (∀ b : Word, Within a (bytesOf w) b → executableAt s.cfg.memMap b = true →
      (storeFind (s.rawWrite a w v).text (textKey b)).isSome = true) ∧
    (∀ k : Nat, (∀ b : Word, Within a (bytesOf w) b → executableAt s.cfg.memMap b = true → textKey b ≠ k) →
      storeFind (s.rawWrite a w v).text k = storeFind s.text k) := by
  unfold State.rawWrite
  split
  · have := State.setBytes_text (s.record (.store a w (s.savedCells a w))) a v (bytesOf w) (bytesOf_le w)
    simp only [State.emit_text, State.record_cfg, State.record_text] at this ⊢
    exact ⟨this.1, this.2.1⟩
  · rename_i h
    refine ⟨?_, fun _ _ => rfl⟩
    intro b hb hbe
    have h2 : s.touchesAbsent a w = false := by
      simp [State.storeChanges] at h
      exact h.2
    by_contra hno
    have : s.touchesAbsent a w = true := by
      unfold State.touchesAbsent
      rw [List.any_eq_true]
      refine ⟨(b - a).toNat, List.mem_range.mpr hb, ?_⟩
      rw [sub_add_ofNat a b rfl]
      simp [hbe]
      simpa using hno
    rw [h2] at this
    exact absurd this (by simp)

/-- A raw write keeps the canonical form of BYTES. -/
theorem State.rawWrite_wf {s : State} (h : Memory.wf s.mem = true) (a : Word) (w : Width) (v : Word) :
    Memory.wf (s.rawWrite a w v).mem = true := by
  have key : ∀ (n : Nat) (t : State), Memory.wf t.mem = true → Memory.wf (t.setBytes a v n).mem = true := by
    intro n
    induction n with
    | zero => intro t h; exact h
    | succ n ih =>
      intro t ht
      have := ih t ht
      simp only [State.setBytes]
      unfold State.setByte
      split
      · exact this
      · exact memSet_wf this (BitVec.isLt _) _
  unfold State.rawWrite
  split
  · exact key _ _ (by simpa using h)
  · exact h

end Sys2Proof.Machine
end

