-- ==== Sys2Proof/Tests/Slice0.lean ====
section
/-! SUPPORT. The model's own tests. Every expected result stands in spec/: the worked examples of files 40 to 46 and the
vectors of 95_test_vectors.md. The witnesses at the end meet the hypotheses of the obligations. -/

set_option Elab.async false

namespace Sys2Proof.Tests

open Sys2Proof.Machine

/-! ## Well-formedness: an ill-formed term for each check is refused -/

theorem test_wf_branch_odd : wellFormed (.beq 6 7 5) = false ∧ wellFormed (.bne 6 7 5) = false ∧
    wellFormed (.blt 6 7 5) = false ∧ wellFormed (.bge 6 7 5) = false ∧ wellFormed (.bltu 6 7 5) = false ∧
    wellFormed (.bgeu 6 7 5) = false := by decide
theorem test_wf_jal_odd : wellFormed (.jal 1 7) = false := by decide
theorem test_wf_upper_low_bit : wellFormed (.lui 5 0x12345001) = false ∧ wellFormed (.auipc 5 0x00000800) = false := by decide
theorem test_wf_accepts : wellFormed (.beq 6 7 (-4096)) = true ∧ wellFormed (.jal 1 0xFFFFE) = true ∧
    wellFormed (.lui 5 0xFFFFF000) = true ∧ wellFormed (.fence 0 0) = true := by decide

/-! ## Decoding: the canonical examples of 95_test_vectors.md 2.1, one theorem per family -/

/-- Each word decodes to its instruction, and the instruction encodes to the word. -/
def allDecode (l : List (Word × Instr)) : Bool := l.all (fun p => decode p.1 == some p.2 && encode p.2 == p.1)

theorem test_decode_integer : allDecode
    [(0x123452B7, .lui 5 0x12345000), (0x12345297, .auipc 5 0x12345000), (0xF9C38313, .addi 6 7 (-100)),
     (0xF9C3A313, .slti 6 7 (-100)), (0xF9C3B313, .sltiu 6 7 (-100)), (0xF9C3C313, .xori 6 7 (-100)),
     (0xF9C3E313, .ori 6 7 (-100)), (0xF9C3F313, .andi 6 7 (-100)), (0x00A39313, .slli 6 7 10),
     (0x00A3D313, .srli 6 7 10), (0x40A3D313, .srai 6 7 10), (0x01C38333, .add 6 7 28),
     (0x41C38333, .sub 6 7 28), (0x01C39333, .sll 6 7 28), (0x01C3A333, .slt 6 7 28),
     (0x01C3B333, .sltu 6 7 28), (0x01C3C333, .xor 6 7 28), (0x01C3D333, .srl 6 7 28),
     (0x41C3D333, .sra 6 7 28), (0x01C3E333, .or 6 7 28), (0x01C3F333, .and 6 7 28)] = true := by decide +kernel
theorem test_decode_control : allDecode
    [(0x008000EF, .jal 1 8), (0xF9C38367, .jalr 6 7 (-100)), (0x00730463, .beq 6 7 8),
     (0x00731463, .bne 6 7 8), (0x00734463, .blt 6 7 8), (0x00735463, .bge 6 7 8), (0x00736463, .bltu 6 7 8),
     (0x00737463, .bgeu 6 7 8)] = true := by decide +kernel
theorem test_decode_loads_and_stores : allDecode
    [(0xF9C38303, .lb 6 7 (-100)), (0xF9C39303, .lh 6 7 (-100)), (0xF9C3A303, .lw 6 7 (-100)),
     (0xF9C3C303, .lbu 6 7 (-100)), (0xF9C3D303, .lhu 6 7 (-100)), (0xF8638E23, .sb 7 6 (-100)),
     (0xF8639E23, .sh 7 6 (-100)), (0xF863AE23, .sw 7 6 (-100))] = true := by decide +kernel
theorem test_decode_multiply_and_divide : allDecode
    [(0x03C38333, .mul 6 7 28), (0x03C39333, .mulh 6 7 28), (0x03C3A333, .mulhsu 6 7 28),
     (0x03C3B333, .mulhu 6 7 28), (0x03C3C333, .div 6 7 28), (0x03C3D333, .divu 6 7 28),
     (0x03C3E333, .rem 6 7 28), (0x03C3F333, .remu 6 7 28)] = true := by decide +kernel
theorem test_decode_system_and_csr : allDecode
    [(0x0110000F, .fence 1 1), (0x0000100F, .fenceI), (0x00000073, .ecall), (0x00100073, .ebreak),
     (0x00200073, .uret), (0x10500073, .wfi), (0x003312F3, .csrrw 5 0x003 6), (0x003322F3, .csrrs 5 0x003 6),
     (0x003332F3, .csrrc 5 0x003 6), (0x003552F3, .csrrwi 5 0x003 10), (0x003562F3, .csrrsi 5 0x003 10),
     (0x003572F3, .csrrci 5 0x003 10)] = true := by decide +kernel
theorem test_decode_single_precision : allDecode
    [(0xF9C3A007, .flw 0 7 (-100)), (0xF803AE27, .fsw 7 0 (-100)), (0x1820F043, .fmaddS 0 1 2 3 0b111),
     (0x1820F047, .fmsubS 0 1 2 3 0b111), (0x1820F04B, .fnmsubS 0 1 2 3 0b111),
     (0x1820F04F, .fnmaddS 0 1 2 3 0b111), (0x0020F053, .faddS 0 1 2 0b111), (0x0820F053, .fsubS 0 1 2 0b111),
     (0x1020F053, .fmulS 0 1 2 0b111), (0x1820F053, .fdivS 0 1 2 0b111), (0x5800F053, .fsqrtS 0 1 0b111),
     (0x20208053, .fsgnjS 0 1 2), (0x20209053, .fsgnjnS 0 1 2), (0x2020A053, .fsgnjxS 0 1 2),
     (0x28208053, .fminS 0 1 2), (0x28209053, .fmaxS 0 1 2), (0xA020A353, .feqS 6 1 2),
     (0xA0209353, .fltS 6 1 2), (0xA0208353, .fleS 6 1 2), (0xE0009353, .fclassS 6 1),
     (0xC000F353, .fcvtWS 6 1 0b111), (0xC010F353, .fcvtWuS 6 1 0b111), (0xD00370D3, .fcvtSW 1 6 0b111),
     (0xD01370D3, .fcvtSWu 1 6 0b111), (0xE0008353, .fmvXW 6 1), (0xF00300D3, .fmvWX 1 6)] = true := by decide +kernel
theorem test_decode_double_precision : allDecode
    [(0xF9C3B007, .fld 0 7 (-100)), (0xF803BE27, .fsd 7 0 (-100)), (0x1A20F043, .fmaddD 0 1 2 3 0b111),
     (0x1A20F047, .fmsubD 0 1 2 3 0b111), (0x1A20F04B, .fnmsubD 0 1 2 3 0b111),
     (0x1A20F04F, .fnmaddD 0 1 2 3 0b111), (0x0220F053, .faddD 0 1 2 0b111), (0x0A20F053, .fsubD 0 1 2 0b111),
     (0x1220F053, .fmulD 0 1 2 0b111), (0x1A20F053, .fdivD 0 1 2 0b111), (0x5A00F053, .fsqrtD 0 1 0b111),
     (0x22208053, .fsgnjD 0 1 2), (0x22209053, .fsgnjnD 0 1 2), (0x2220A053, .fsgnjxD 0 1 2),
     (0x2A208053, .fminD 0 1 2), (0x2A209053, .fmaxD 0 1 2), (0x4010F053, .fcvtSD 0 1 0b111),
     (0x4200F053, .fcvtDS 0 1 0b111), (0xA220A353, .feqD 6 1 2), (0xA2209353, .fltD 6 1 2),
     (0xA2208353, .fleD 6 1 2), (0xE2009353, .fclassD 6 1), (0xC200F353, .fcvtWD 6 1 0b111),
     (0xC210F353, .fcvtWuD 6 1 0b111), (0xD20370D3, .fcvtDW 1 6 0b111), (0xD21370D3, .fcvtDWu 1 6 0b111)] = true := by decide +kernel

/-- 95_test_vectors.md 2.2, VE1 to VE11. -/
theorem test_decode_refuses : [0x00000000, 0xFFFFFFFF, 0x02039313, 0x8FF0000F, 0x0000200F, 0x00003003, 0x0010100F,
    0x30200073, 0x10200073, 0x06008053, 0x42108053].all (fun w => decode w == none) = true := by decide +kernel
/-- VE12 to VE18. -/
theorem test_decode_edges : allDecode [(0x0020D053, .faddS 0 1 2 0b101), (0x00000013, .addi 0 0 0), (0x00100013, .addi 0 0 1),
    (0x00008067, .jalr 0 1 0), (0x0000000F, .fence 0 0), (0x00001073, .csrrw 0 0 0), (0x40000033, .sub 0 0 0)] = true := by
  decide +kernel
/-- 30_encoding.md R253, R255: `beq t1, t2, -8` and `jal ra, -8`, the scrambled offsets with every sign bit set. -/
theorem test_decode_negative_offsets : allDecode [(0xFE730CE3, .beq 6 7 (-8)), (0xFF9FF0EF, .jal 1 (-8))] = true := by
  decide +kernel
/-- The host's word goes through the byte order of memory to the decoder (R156). -/
theorem test_decode_table_word : decodeTableWord 32 0x00B502B3 = some (.add 5 10 11) ∧ decodeTableWord 32 0 = none := by
  decide +kernel

/-! ## One step of each instruction: the worked examples of files 40 to 46 -/

/-- A step answers a next state that passes a check. -/
def steps (s : State) (p : State → Bool) : Bool :=
  match Machine.step s with
  | .next t => p t
  | _ => false

/-- The machine about to run a word at the entry point, prepared. -/
def ready (w : Nat) (prep : List (State → State)) : State := prep.foldl (fun s g => g s) (State.reset.withFetchWord 32 w)

/-- The word runs and leaves a state that passes a check. -/
def runs (w : Nat) (prep : List (State → State)) (p : State → Bool) : Bool := steps (ready w prep) p

def x (r : Reg) (v : Word) (s : State) : State := { s with x := s.x.set r.toNat v r.isLt }
def d (r : Reg) (v : DWord) (s : State) : State := { s with f := s.f.set r.toNat v r.isLt }
def f (r : Reg) (v : Word) : State → State := d r ((0xFFFFFFFF : Word) ++ v)
def c (r : Csr) (v : Word) (s : State) : State := s.csrBackdoor r v
def bytes (a : Nat) (l : List Byte) (s : State) : State :=
  { s with mem := (l.foldl (fun p b => (memSet p.1 p.2 b, p.2 + 1)) (s.mem, a)).1 }
def code (a : Nat) (w : Word) (s : State) : State := { s with text := storePut s.text a w }
def smc (s : State) : State := { s with cfg := { s.cfg with smcEnabled := true } }
def devices (s : State) : State := { s with cfg := { s.cfg with deviceAgents := true } }
def at10 (w : Word) (s : State) : State := { s with pc := 0x00400010, text := [(0x00400010, w)] }

/-- The instruction retired and went on: one more retirement, and the run goes on. -/
def went (t : State) (pc : Word) : Bool := t.pc == pc && t.cycles == 1 && t.instret == 1 && t.driver == .running
/-- It retired at the entry point and went to the next word. -/
def on (t : State) : Bool := went t 0x00400004
/-- It trapped with no handler: cause, trap value, address, nothing retired. -/
def trapped (t : State) (cause tval : Word) : Bool :=
  t.csr.ucause == cause && t.csr.utval == tval && t.csr.uepc == 0x00400000 && t.cycles == 0 && t.pc == 0x00400004 &&
    t.mem == [] && !t.active

/-! ### 40_integer.md -/

theorem test_lui :
    runs 0x123452B7 [] (fun t => t.readX 5 == 0x12345000 && on t) = true := by decide +kernel
theorem test_auipc :
    runs 0x00001297 [] (fun t => t.readX 5 == 0x00401000 && on t) = true := by decide +kernel
theorem test_addi :
    runs 0x00150293 [x 10 0x7FFFFFFF] (fun t => t.readX 5 == 0x80000000 && on t) = true ∧
    runs 0x80050293 [x 10 5] (fun t => t.readX 5 == 0xFFFFF805 && on t) = true := by decide +kernel
theorem test_slti :
    runs 0x00052293 [x 10 0xFFFFFFFF] (fun t => t.readX 5 == 1 && on t) = true := by decide +kernel
theorem test_sltiu :
    runs 0xFFF53293 [x 10 5] (fun t => t.readX 5 == 1 && on t) = true ∧
    runs 0x00153293 [] (fun t => t.readX 5 == 1 && on t) = true := by decide +kernel
theorem test_xori :
    runs 0xFFF54293 [x 10 0x0F0F0F0F] (fun t => t.readX 5 == 0xF0F0F0F0 && on t) = true := by decide +kernel
theorem test_ori :
    runs 0x76556293 [x 10 0x12340000] (fun t => t.readX 5 == 0x12340765 && on t) = true := by decide +kernel
theorem test_andi :
    runs 0xFF057293 [x 10 0xFFFFFFFF] (fun t => t.readX 5 == 0xFFFFFFF0 && on t) = true := by decide +kernel
theorem test_slli :
    runs 0x01F51293 [x 10 0x80000001] (fun t => t.readX 5 == 0x80000000 && on t) = true := by decide +kernel
theorem test_srli :
    runs 0x00455293 [x 10 0x80000000] (fun t => t.readX 5 == 0x08000000 && on t) = true := by decide +kernel
theorem test_srai :
    runs 0x40455293 [x 10 0x80000000] (fun t => t.readX 5 == 0xF8000000 && on t) = true := by decide +kernel
theorem test_add :
    runs 0x00B502B3 [x 10 2, x 11 3] (fun t => t.readX 5 == 5 && on t) = true ∧
    runs 0x00B502B3 [x 10 0xFFFFFFFF, x 11 1] (fun t => t.readX 5 == 0 && on t) = true := by decide +kernel
theorem test_add_to_x0 :
    runs 0x00B50033 [x 10 2, x 11 3] (fun t => t.readX 0 == 0 && t.x == (ready 0x00B50033 [x 10 2, x 11 3]).x && on t) = true := by decide +kernel
theorem test_sub :
    runs 0x40B502B3 [x 10 0, x 11 1] (fun t => t.readX 5 == 0xFFFFFFFF && on t) = true := by decide +kernel
theorem test_sll :
    runs 0x00B512B3 [x 10 1, x 11 33] (fun t => t.readX 5 == 2 && on t) = true := by decide +kernel
theorem test_slt :
    runs 0x00B522B3 [x 10 0xFFFFFFFB, x 11 3] (fun t => t.readX 5 == 1 && on t) = true := by decide +kernel
theorem test_sltu :
    runs 0x00B532B3 [x 10 0xFFFFFFFB, x 11 3] (fun t => t.readX 5 == 0 && on t) = true := by decide +kernel
theorem test_xor :
    runs 0x00B542B3 [x 10 0xFF00FF00, x 11 0x0FF00FF0] (fun t => t.readX 5 == 0xF0F0F0F0 && on t) = true := by decide +kernel
theorem test_srl :
    runs 0x00B552B3 [x 10 0xF0000000, x 11 0x24] (fun t => t.readX 5 == 0x0F000000 && on t) = true := by decide +kernel
theorem test_sra :
    runs 0x40B552B3 [x 10 0xF0000000, x 11 0x24] (fun t => t.readX 5 == 0xFF000000 && on t) = true := by decide +kernel
theorem test_or :
    runs 0x00B562B3 [x 10 0xF0, x 11 0x0F] (fun t => t.readX 5 == 0xFF && on t) = true := by decide +kernel
theorem test_and :
    runs 0x00B572B3 [x 10 0xF0, x 11 0x3C] (fun t => t.readX 5 == 0x30 && on t) = true := by decide +kernel

/-! ### 41_control.md -/

theorem test_jal :
    runs 0x001000EF [] (fun t => t.readX 1 == 0x00400004 && went t 0x00400800) = true := by decide +kernel
theorem test_jal_back :
    runs 0 [at10 0xFF9FF0EF] (fun t => t.readX 1 == 0x00400014 && went t 0x00400008) = true := by decide +kernel
theorem test_jalr :
    runs 0x000280E7 [x 5 0x00400101] (fun t => t.readX 1 == 0x00400004 && went t 0x00400100) = true := by decide +kernel
theorem test_jalr_same_register :
    runs 0xFFC282E7 [x 5 0x00400100] (fun t => t.readX 5 == 0x00400004 && went t 0x004000FC) = true := by decide +kernel
theorem test_beq :
    runs 0 [at10 0xFE730CE3, x 6 5, x 7 5] (fun t => went t 0x00400008) = true ∧
    runs 0 [at10 0xFE730CE3, x 6 5, x 7 6] (fun t => went t 0x00400014) = true := by decide +kernel
theorem test_bne :
    runs 0 [at10 0xFE731CE3, x 6 5, x 7 6] (fun t => went t 0x00400008) = true ∧
    runs 0 [at10 0xFE731CE3, x 6 5, x 7 5] (fun t => went t 0x00400014) = true := by decide +kernel
theorem test_blt :
    runs 0 [at10 0xFE734CE3, x 6 0xFFFFFFFF, x 7 1] (fun t => went t 0x00400008) = true ∧
    runs 0 [at10 0xFE734CE3, x 6 1, x 7 0xFFFFFFFF] (fun t => went t 0x00400014) = true := by decide +kernel
theorem test_bge :
    runs 0 [at10 0xFE735CE3, x 6 0xFFFFFFFF, x 7 0xFFFFFFFF] (fun t => went t 0x00400008) = true ∧
    runs 0 [at10 0xFE735CE3, x 6 0xFFFFFFFE, x 7 0xFFFFFFFF] (fun t => went t 0x00400014) = true := by decide +kernel
theorem test_bltu :
    runs 0 [at10 0xFE736CE3, x 6 1, x 7 0xFFFFFFFF] (fun t => went t 0x00400008) = true ∧
    runs 0 [at10 0xFE736CE3, x 6 0xFFFFFFFF, x 7 1] (fun t => went t 0x00400014) = true := by decide +kernel
theorem test_bgeu :
    runs 0 [at10 0xFE737CE3, x 6 0xFFFFFFFF, x 7 1] (fun t => went t 0x00400008) = true ∧
    runs 0 [at10 0xFE737CE3, x 6 0, x 7 0] (fun t => went t 0x00400008) = true := by decide +kernel

/-! ### 42_loadstore.md -/

theorem test_lb :
    runs 0x00030283 [bytes 0x10010000 [0x44, 0x33, 0x22, 0x81], x 6 0x10010003] (fun t => t.readX 5 == 0xFFFFFF81 && on t) = true := by decide +kernel
theorem test_lh :
    runs 0xFFE31283 [bytes 0x10010000 [0x44, 0x33, 0x22, 0x81], x 6 0x10010004] (fun t => t.readX 5 == 0xFFFF8122 && on t) = true := by decide +kernel
theorem test_lh_misaligned :
    runs 0x00131283 [x 6 0x10010000, x 5 7] (fun t => t.readX 5 == 7 && trapped t 4 0x10010001) = true := by decide +kernel
theorem test_lw :
    runs 0xFFC32283 [bytes 0x10010000 [0x44, 0x33, 0x22, 0x81], x 6 0x10010004] (fun t => t.readX 5 == 0x81223344 && on t) = true ∧
    runs 0x00032283 [bytes 0x10010000 [0x44, 0x33, 0x22, 0x81], x 6 0x10010008, x 5 7] (fun t => t.readX 5 == 0 && on t) = true := by decide +kernel
theorem test_lw_faults :
    runs 0x00232283 [x 6 0x10010000] (fun t => trapped t 4 0x10010002) = true ∧
    runs 0x00032283 [x 6 0x00400000] (fun t => trapped t 5 0x00400000) = true := by decide +kernel
theorem test_lbu :
    runs 0x00034283 [bytes 0x10010000 [0x44, 0x33, 0x22, 0x81], x 6 0x10010003] (fun t => t.readX 5 == 0x00000081 && on t) = true := by decide +kernel
theorem test_lhu :
    runs 0xFFE35283 [bytes 0x10010000 [0x44, 0x33, 0x22, 0x81], x 6 0x10010004] (fun t => t.readX 5 == 0x00008122 && on t) = true := by decide +kernel
theorem test_sb :
    runs 0x00638023 [x 6 0x1234ABCD, x 7 0x10010001] (fun t => t.mem == [(0x10010001, 0xCD)] && t.outputs.contains (.memChanged 0x10010001 .byte 0xCD) && on t) = true := by decide +kernel
theorem test_sh :
    runs 0x00639023 [x 6 0x1234ABCD, x 7 0x10010002] (fun t => t.mem == [(0x10010002, 0xCD), (0x10010003, 0xAB)] && on t) = true := by decide +kernel
theorem test_sw :
    runs 0xFE63AE23 [x 6 0x1234ABCD, x 7 0x10010004] (fun t => t.mem == [(0x10010000, 0xCD), (0x10010001, 0xAB), (0x10010002, 0x34), (0x10010003, 0x12)] && on t) = true := by decide +kernel
theorem test_sw_faults :
    runs 0x0063A023 [x 7 0x10010001] (fun t => trapped t 6 0x10010001) = true ∧
    runs 0x0063A023 [x 7 0x00400000] (fun t => trapped t 7 0x00400000) = true := by decide +kernel
/-- 20_memory.md R162: a statement that was absent is present after the store. -/
theorem test_sw_into_text :
    runs 0x0063A023 [smc, x 6 0x13, x 7 0x00400008] (fun t => t.text == [(0x00400000, 0x0063A023), (0x00400008, 0x13)] && t.mem == [] && on t) = true := by decide +kernel

/-! ### 43_muldiv.md -/

theorem test_mul :
    runs 0x02B502B3 [x 10 7, x 11 0xFFFFFFFD] (fun t => t.readX 5 == 0xFFFFFFEB && on t) = true ∧
    runs 0x02B502B3 [x 10 0x00010000, x 11 0x00010000] (fun t => t.readX 5 == 0 && on t) = true := by decide +kernel
theorem test_mulh :
    runs 0x02B512B3 [x 10 0x80000000, x 11 0x80000000] (fun t => t.readX 5 == 0x40000000 && on t) = true ∧
    runs 0x02B512B3 [x 10 0xFFFFFFFF, x 11 0xFFFFFFFF] (fun t => t.readX 5 == 0 && on t) = true := by decide +kernel
theorem test_mulhsu :
    runs 0x02B522B3 [x 10 0xFFFFFFFF, x 11 0xFFFFFFFF] (fun t => t.readX 5 == 0xFFFFFFFF && on t) = true ∧
    runs 0x02B522B3 [x 10 2, x 11 0xFFFFFFFF] (fun t => t.readX 5 == 1 && on t) = true := by decide +kernel
theorem test_mulhu :
    runs 0x02B532B3 [x 10 0xFFFFFFFF, x 11 0xFFFFFFFF] (fun t => t.readX 5 == 0xFFFFFFFE && on t) = true ∧
    runs 0x02B532B3 [x 10 0x00010000, x 11 0x00010000] (fun t => t.readX 5 == 1 && on t) = true := by decide +kernel
theorem test_div :
    runs 0x02B542B3 [x 10 0xFFFFFFF9, x 11 2] (fun t => t.readX 5 == 0xFFFFFFFD && on t) = true ∧
    runs 0x02B542B3 [x 10 7, x 11 0xFFFFFFFE] (fun t => t.readX 5 == 0xFFFFFFFD && on t) = true := by decide +kernel
theorem test_div_corners :
    runs 0x02B542B3 [x 10 7, x 11 0] (fun t => t.readX 5 == 0xFFFFFFFF && on t) = true ∧
    runs 0x02B542B3 [x 10 0x80000000, x 11 0xFFFFFFFF] (fun t => t.readX 5 == 0x80000000 && on t) = true := by decide +kernel
theorem test_divu :
    runs 0x02B552B3 [x 10 0xFFFFFFF9, x 11 2] (fun t => t.readX 5 == 0x7FFFFFFC && on t) = true ∧
    runs 0x02B552B3 [x 10 5, x 11 0] (fun t => t.readX 5 == 0xFFFFFFFF && on t) = true := by decide +kernel
theorem test_rem :
    runs 0x02B562B3 [x 10 0xFFFFFFF9, x 11 2] (fun t => t.readX 5 == 0xFFFFFFFF && on t) = true ∧
    runs 0x02B562B3 [x 10 7, x 11 0xFFFFFFFE] (fun t => t.readX 5 == 1 && on t) = true := by decide +kernel
theorem test_rem_corners :
    runs 0x02B562B3 [x 10 5, x 11 0] (fun t => t.readX 5 == 5 && on t) = true ∧
    runs 0x02B562B3 [x 10 0x80000000, x 11 0xFFFFFFFF] (fun t => t.readX 5 == 0 && on t) = true := by decide +kernel
theorem test_remu :
    runs 0x02B572B3 [x 10 0xFFFFFFF9, x 11 2] (fun t => t.readX 5 == 1 && on t) = true ∧
    runs 0x02B572B3 [x 10 5, x 11 0] (fun t => t.readX 5 == 5 && on t) = true := by decide +kernel

/-! ### 44_system.md -/

theorem test_fence :
    runs 0x0FF0000F [] (fun t => t.x == (ready 0x0FF0000F []).x && t.csr.ustatus == 0 && t.mem == [] && on t) = true := by decide +kernel
theorem test_fence_i :
    runs 0x0000100F [] (fun t => t.x == (ready 0x0000100F []).x && t.csr.ustatus == 0 && t.mem == [] && on t) = true := by decide +kernel
theorem test_wfi :
    runs 0x10500073 [] (fun t => t.x == (ready 0x10500073 []).x && t.csr.ustatus == 0 && t.mem == [] && on t) = true := by decide +kernel
theorem test_ebreak :
    runs 0x00100073 [] (fun t => t.driver == .stopped .breakpoint && t.pc == 0x00400004 && t.instret == 1) = true := by decide +kernel
theorem test_ecall_exit :
    runs 0x00000073 [x 17 10] (fun t => t.driver == .stopped (.exit 0) && t.pc == 0x00400000 && t.instret == 0 && t.steps == 1) = true ∧
    runs 0x00000073 [x 17 93, x 10 42] (fun t => t.driver == .stopped (.exit 42)) = true := by decide +kernel
theorem test_ecall_unknown :
    runs 0x00000073 [x 17 5] (fun t => trapped t 8 0 && t.driver == .stopped (.exception .environmentCallFault 8 0 0x00400000)) = true := by decide +kernel
theorem test_uret :
    runs 0x00200073 [c .uepc 0x00400100, c .ustatus 0x10] (fun t => t.csr.ustatus == 0x11 && went t 0x00400100) = true := by decide +kernel
theorem test_csrrw :
    runs 0x003312F3 [c .fcsr 0x12, x 6 0xFF] (fun t => t.readX 5 == 0x12 && t.csr.fcsr == 0xFF && on t) = true ∧
    runs 0x002312F3 [c .fcsr 0x12, x 6 7] (fun t => t.readX 5 == 0 && t.csr.fcsr == 0xF2 && on t) = true := by decide +kernel
theorem test_csrrw_read_only :
    runs 0xC00312F3 [x 5 7] (fun t => t.readX 5 == 7 && trapped t 2 0xC00312F3) = true := by decide +kernel
theorem test_csrrs :
    runs 0x001322F3 [c .fcsr 0xE2, x 6 1] (fun t => t.readX 5 == 0x02 && t.csr.fcsr == 0xE3 && on t) = true ∧
    runs 0x000022F3 [c .ustatus 0x11] (fun t => t.readX 5 == 0x11 && t.csr.ustatus == 0x11 && on t) = true := by decide +kernel
theorem test_csrrs_cycle :
    runs 0xC00022F3 [x 5 7] (fun t => t.readX 5 == 0 && on t) = true ∧
    runs 0xC00322F3 [] (fun t => trapped t 2 0xC00322F3) = true := by decide +kernel
theorem test_csrrc :
    runs 0x000332F3 [c .ustatus 0x11, x 6 1] (fun t => t.readX 5 == 0x11 && t.csr.ustatus == 0x10 && on t) = true := by decide +kernel
theorem test_csrrwi :
    runs 0x003552F3 [x 5 7] (fun t => t.readX 5 == 0 && t.csr.fcsr == 0x0A && on t) = true := by decide +kernel
theorem test_csrrsi :
    runs 0x0048E2F3 [c .uie 0x100] (fun t => t.readX 5 == 0x100 && t.csr.uie == 0x111 && on t) = true := by decide +kernel
theorem test_csrrci :
    runs 0x0040F2F3 [c .uie 0x111] (fun t => t.readX 5 == 0x111 && t.csr.uie == 0x110 && on t) = true := by decide +kernel
/-- R429: mstatus is absent, even for a read. -/
theorem test_csr_absent :
    runs 0x300022F3 [] (fun t => trapped t 2 0x300022F3) = true := by decide +kernel

/-! ### 45_float_single.md -/

theorem test_flw :
    runs 0xF9C3A007 [bytes 0x10010000 [0, 0, 0x80, 0x3F], x 7 0x10010064] (fun t => t.readF 0 == 0xFFFFFFFF3F800000 && t.csr.fcsr == 0 && on t) = true := by decide +kernel
theorem test_fsw :
    runs 0xF803AE27 [f 0 0x40490FDB, x 7 0x10010064] (fun t => t.mem == [(0x10010000, 0xDB), (0x10010001, 0x0F), (0x10010002, 0x49), (0x10010003, 0x40)] && on t) = true := by decide +kernel
theorem test_fmadd_s :
    runs 0x1820F043 [f 1 0x3FC00000, f 2 0x40000000, f 3 0x3F000000] (fun t => t.readF 0 == 0xFFFFFFFF40600000 && t.csr.fcsr == 0 && on t) = true := by decide +kernel
theorem test_fmsub_s :
    runs 0x1820F047 [f 1 0x3FC00000, f 2 0x40000000, f 3 0x3F000000] (fun t => t.readF 0 == 0xFFFFFFFF40200000 && t.csr.fcsr == 0 && on t) = true := by decide +kernel
theorem test_fnmsub_s :
    runs 0x1820F04B [f 1 0x3FC00000, f 2 0x40000000, f 3 0x3F000000] (fun t => t.readF 0 == 0xFFFFFFFFC0200000 && t.csr.fcsr == 0 && on t) = true := by decide +kernel
theorem test_fnmadd_s :
    runs 0x1820F04F [f 1 0x3FC00000, f 2 0x40000000, f 3 0x3F000000] (fun t => t.readF 0 == 0xFFFFFFFFC0600000 && t.csr.fcsr == 0 && on t) = true := by decide +kernel
/-- R493: NV even where the addend is a quiet NaN. -/
theorem test_fma_infinity_times_zero :
    runs 0x18208043 [f 1 0x7F800000, f 2 0, f 3 0x7FC00000] (fun t => t.readF 0 == 0xFFFFFFFF7FC00000 && t.csr.fcsr == 0x10 && on t) = true := by decide +kernel
theorem test_fadd_s :
    runs 0x0020F053 [f 1 0x3FC00000, f 2 0x40100000] (fun t => t.readF 0 == 0xFFFFFFFF40700000 && t.csr.fcsr == 0 && on t) = true ∧
    runs 0x00208053 [f 1 0x3FC00000, f 2 0x40100000] (fun t => t.readF 0 == 0xFFFFFFFF40700000 && t.csr.fcsr == 0 && on t) = true := by decide +kernel
theorem test_fadd_s_bad_mode :
    runs 0x0020D053 [d 0 9] (fun t => t.readF 0 == 9 && trapped t 2 0x0020D053) = true ∧
    runs 0x0020F053 [c .fcsr 0xA0] (fun t => trapped t 2 0x0020F053) = true := by decide +kernel
theorem test_fsub_s :
    runs 0x0820F053 [f 1 0x7F800000, f 2 0x7F800000] (fun t => t.readF 0 == 0xFFFFFFFF7FC00000 && t.csr.fcsr == 0x10 && on t) = true := by decide +kernel
theorem test_fmul_s :
    runs 0x1020F053 [f 1 0x7149F2CA, f 2 0x7149F2CA] (fun t => t.readF 0 == 0xFFFFFFFF7F800000 && t.csr.fcsr == 0x05 && on t) = true := by decide +kernel
theorem test_fdiv_s :
    runs 0x1820F053 [f 1 0x3F800000, f 2 0x40400000] (fun t => t.readF 0 == 0xFFFFFFFF3EAAAAAB && t.csr.fcsr == 1 && on t) = true ∧
    runs 0x18209053 [f 1 0x3F800000, f 2 0x40400000] (fun t => t.readF 0 == 0xFFFFFFFF3EAAAAAA && t.csr.fcsr == 1 && on t) = true := by decide +kernel
theorem test_fdiv_s_by_zero :
    runs 0x1820F053 [f 1 0x3F800000, f 2 0] (fun t => t.readF 0 == 0xFFFFFFFF7F800000 && t.csr.fcsr == 8 && on t) = true := by decide +kernel
theorem test_fsqrt_s :
    runs 0x5800F053 [f 1 0x40800000] (fun t => t.readF 0 == 0xFFFFFFFF40000000 && t.csr.fcsr == 0 && on t) = true ∧
    runs 0x5800F053 [f 1 0xBF800000] (fun t => t.readF 0 == 0xFFFFFFFF7FC00000 && t.csr.fcsr == 0x10 && on t) = true := by decide +kernel
theorem test_fsgnj_s :
    runs 0x20208053 [f 1 0x3F800000, f 2 0xC0000000] (fun t => t.readF 0 == 0xFFFFFFFFBF800000 && t.csr.fcsr == 0 && on t) = true := by decide +kernel
theorem test_fsgnjn_s :
    runs 0x20109053 [f 1 0x3F800000] (fun t => t.readF 0 == 0xFFFFFFFFBF800000 && t.csr.fcsr == 0 && on t) = true := by decide +kernel
theorem test_fsgnjx_s :
    runs 0x2010A053 [f 1 0xBF800000] (fun t => t.readF 0 == 0xFFFFFFFF3F800000 && t.csr.fcsr == 0 && on t) = true := by decide +kernel
theorem test_fmin_s :
    runs 0x28208053 [f 1 0x80000000, f 2 0] (fun t => t.readF 0 == 0xFFFFFFFF80000000 && t.csr.fcsr == 0 && on t) = true ∧
    runs 0x28208053 [f 1 0x7FC00000, f 2 0x3F800000] (fun t => t.readF 0 == 0xFFFFFFFF3F800000 && t.csr.fcsr == 0 && on t) = true ∧
    runs 0x28208053 [f 1 0x7F800001, f 2 0x3F800000] (fun t => t.readF 0 == 0xFFFFFFFF3F800000 && t.csr.fcsr == 0x10 && on t) = true := by decide +kernel
theorem test_fmax_s :
    runs 0x28209053 [f 1 0x80000000, f 2 0] (fun t => t.readF 0 == 0xFFFFFFFF00000000 && t.csr.fcsr == 0 && on t) = true ∧
    runs 0x28209053 [f 1 0x7FC00000, f 2 0x7FC00000] (fun t => t.readF 0 == 0xFFFFFFFF7FC00000 && t.csr.fcsr == 0 && on t) = true := by decide +kernel
theorem test_feq_s :
    runs 0xA020A353 [f 1 0x80000000, f 2 0] (fun t => t.readX 6 == 1 && t.csr.fcsr == 0 && on t) = true ∧
    runs 0xA020A353 [f 1 0x7FC00000, f 2 0] (fun t => t.readX 6 == 0 && t.csr.fcsr == 0 && on t) = true := by decide +kernel
theorem test_flt_s :
    runs 0xA0209353 [f 1 0x3F800000, f 2 0x40000000] (fun t => t.readX 6 == 1 && t.csr.fcsr == 0 && on t) = true ∧
    runs 0xA0209353 [f 1 0x7FC00000, f 2 0] (fun t => t.readX 6 == 0 && t.csr.fcsr == 0x10 && on t) = true := by decide +kernel
theorem test_fle_s :
    runs 0xA0208353 [f 1 0x40000000, f 2 0x40000000] (fun t => t.readX 6 == 1 && t.csr.fcsr == 0 && on t) = true := by decide +kernel
theorem test_fclass_s :
    runs 0xE0009353 [f 1 0xFF800000] (fun t => t.readX 6 == 0x001 && t.csr.fcsr == 0 && on t) = true ∧
    runs 0xE0009353 [f 1 0x80000000] (fun t => t.readX 6 == 0x008 && t.csr.fcsr == 0 && on t) = true ∧
    runs 0xE0009353 [f 1 0x00000001] (fun t => t.readX 6 == 0x020 && t.csr.fcsr == 0 && on t) = true ∧
    runs 0xE0009353 [f 1 0x3F800000] (fun t => t.readX 6 == 0x040 && t.csr.fcsr == 0 && on t) = true ∧
    runs 0xE0009353 [f 1 0x7F800001] (fun t => t.readX 6 == 0x100 && t.csr.fcsr == 0 && on t) = true ∧
    runs 0xE0009353 [f 1 0x7FC00000] (fun t => t.readX 6 == 0x200 && t.csr.fcsr == 0 && on t) = true := by decide +kernel
theorem test_fclass_s_unboxed :
    runs 0xE0009353 [] (fun t => t.readX 6 == 0x200 && t.csr.fcsr == 0 && on t) = true := by decide +kernel
theorem test_fcvt_w_s :
    runs 0xC0008353 [f 1 0x40200000] (fun t => t.readX 6 == 2 && t.csr.fcsr == 1 && on t) = true ∧
    runs 0xC000B353 [f 1 0x40200000] (fun t => t.readX 6 == 3 && t.csr.fcsr == 1 && on t) = true ∧
    runs 0xC000A353 [f 1 0xC0200000] (fun t => t.readX 6 == 0xFFFFFFFD && t.csr.fcsr == 1 && on t) = true := by decide +kernel
theorem test_fcvt_w_s_nan :
    runs 0xC0008353 [f 1 0x7FC00000] (fun t => t.readX 6 == 0x7FFFFFFF && t.csr.fcsr == 0x10 && on t) = true ∧
    runs 0xC0008353 [f 1 0x4F000000] (fun t => t.readX 6 == 0x7FFFFFFF && t.csr.fcsr == 0x10 && on t) = true := by decide +kernel
theorem test_fcvt_wu_s :
    runs 0xC0109353 [f 1 0xBF800000] (fun t => t.readX 6 == 0 && t.csr.fcsr == 0x10 && on t) = true ∧
    runs 0xC0109353 [f 1 0xBF000000] (fun t => t.readX 6 == 0 && t.csr.fcsr == 1 && on t) = true := by decide +kernel
theorem test_fcvt_s_w :
    runs 0xD00370D3 [x 6 0x7FFFFFFF] (fun t => t.readF 1 == 0xFFFFFFFF4F000000 && t.csr.fcsr == 1 && on t) = true ∧
    runs 0xD00370D3 [x 6 16777217] (fun t => t.readF 1 == 0xFFFFFFFF4B800000 && t.csr.fcsr == 1 && on t) = true := by decide +kernel
theorem test_fcvt_s_wu :
    runs 0xD01370D3 [x 6 0xFFFFFFFF] (fun t => t.readF 1 == 0xFFFFFFFF4F800000 && t.csr.fcsr == 1 && on t) = true := by decide +kernel
theorem test_fmv_x_w :
    runs 0xE0008353 [f 1 0x3F800000] (fun t => t.readX 6 == 0x3F800000 && t.csr.fcsr == 0 && on t) = true ∧
    runs 0xE0008353 [d 1 0x3F800000] (fun t => t.readX 6 == 0x3F800000 && t.csr.fcsr == 0 && on t) = true := by decide +kernel
theorem test_fmv_w_x :
    runs 0xF00300D3 [x 6 0x7F800001] (fun t => t.readF 1 == 0xFFFFFFFF7F800001 && t.csr.fcsr == 0 && on t) = true := by decide +kernel

/-! ### 46_float_double.md -/

theorem test_fld :
    runs 0xF9C3B007 [bytes 0x10010000 [0, 0, 0, 0, 0, 0, 0xF0, 0x3F], x 7 0x10010064] (fun t => t.readF 0 == 0x3FF0000000000000 && t.csr.fcsr == 0 && on t) = true ∧
    runs 0xF9C3B007 [x 7 0x10010066] (fun t => trapped t 4 0x10010002) = true := by decide +kernel
theorem test_fsd :
    runs 0xF803BE27 [d 0 0x400921FB54442D18, x 7 0x10010068] (fun t => t.mem.map (·.1) == (List.range 8).map (0x10010004 + ·) &&
      t.mem.map (·.2) == [0x18, 0x2D, 0x44, 0x54, 0xFB, 0x21, 0x09, 0x40] && on t) = true := by decide +kernel
/-- R523: the second word lies in kernel text, and nothing is written. -/
theorem test_fsd_second_word :
    runs 0x0003B027 [d 0 1, x 7 0x7FFFFFFC] (fun t => trapped t 7 0x80000000) = true := by decide +kernel
theorem test_fmadd_d :
    runs 0x1A20F043 [d 1 0x3FF8000000000000, d 2 0x4000000000000000, d 3 0x3FE0000000000000] (fun t => t.readF 0 == 0x400C000000000000 && t.csr.fcsr == 0 && on t) = true := by decide +kernel
theorem test_fmsub_d :
    runs 0x1A20F047 [d 1 0x3FF8000000000000, d 2 0x4000000000000000, d 3 0x3FE0000000000000] (fun t => t.readF 0 == 0x4004000000000000 && t.csr.fcsr == 0 && on t) = true := by decide +kernel
theorem test_fnmsub_d :
    runs 0x1A20F04B [d 1 0x3FF8000000000000, d 2 0x4000000000000000, d 3 0x3FE0000000000000] (fun t => t.readF 0 == 0xC004000000000000 && t.csr.fcsr == 0 && on t) = true := by decide +kernel
theorem test_fnmadd_d :
    runs 0x1A20F04F [d 1 0x3FF8000000000000, d 2 0x4000000000000000, d 3 0x3FE0000000000000] (fun t => t.readF 0 == 0xC00C000000000000 && t.csr.fcsr == 0 && on t) = true := by decide +kernel
theorem test_fadd_d :
    runs 0x0220F053 [d 1 0x3FF8000000000000, d 2 0x4002000000000000] (fun t => t.readF 0 == 0x400E000000000000 && t.csr.fcsr == 0 && on t) = true := by decide +kernel
theorem test_fsub_d :
    runs 0x0A20F053 [d 1 0x400E000000000000, d 2 0x4002000000000000] (fun t => t.readF 0 == 0x3FF8000000000000 && t.csr.fcsr == 0 && on t) = true := by decide +kernel
theorem test_fmul_d :
    runs 0x1220F053 [d 1 0x3FF8000000000000, d 2 0x4000000000000000] (fun t => t.readF 0 == 0x4008000000000000 && t.csr.fcsr == 0 && on t) = true := by decide +kernel
theorem test_fdiv_d :
    runs 0x1A20F053 [d 1 0x3FF0000000000000, d 2 0x4008000000000000] (fun t => t.readF 0 == 0x3FD5555555555555 && t.csr.fcsr == 1 && on t) = true := by decide +kernel
theorem test_fsqrt_d :
    runs 0x5A00F053 [d 1 0x4010000000000000] (fun t => t.readF 0 == 0x4000000000000000 && t.csr.fcsr == 0 && on t) = true := by decide +kernel
theorem test_fsgnj_d :
    runs 0x22208053 [d 1 0x3FF0000000000000, d 2 0xC000000000000000] (fun t => t.readF 0 == 0xBFF0000000000000 && t.csr.fcsr == 0 && on t) = true := by decide +kernel
theorem test_fsgnjn_d :
    runs 0x22109053 [d 1 0x3FF0000000000000] (fun t => t.readF 0 == 0xBFF0000000000000 && t.csr.fcsr == 0 && on t) = true := by decide +kernel
theorem test_fsgnjx_d :
    runs 0x2210A053 [d 1 0xBFF0000000000000] (fun t => t.readF 0 == 0x3FF0000000000000 && t.csr.fcsr == 0 && on t) = true := by decide +kernel
theorem test_fmin_d :
    runs 0x2A208053 [d 1 0x8000000000000000] (fun t => t.readF 0 == 0x8000000000000000 && t.csr.fcsr == 0 && on t) = true := by decide +kernel
theorem test_fmax_d :
    runs 0x2A209053 [d 1 0x7FF8000000000000, d 2 0x4000000000000000] (fun t => t.readF 0 == 0x4000000000000000 && t.csr.fcsr == 0 && on t) = true := by decide +kernel
theorem test_fcvt_s_d :
    runs 0x4010F053 [d 1 0x3FB999999999999A] (fun t => t.readF 0 == 0xFFFFFFFF3DCCCCCD && t.csr.fcsr == 1 && on t) = true := by decide +kernel
theorem test_fcvt_d_s :
    runs 0x4200F053 [f 1 0x3DCCCCCD] (fun t => t.readF 0 == 0x3FB99999A0000000 && t.csr.fcsr == 0 && on t) = true ∧
    runs 0x4200F053 [] (fun t => t.readF 0 == 0x7FF8000000000000 && t.csr.fcsr == 0 && on t) = true := by decide +kernel
theorem test_feq_d :
    runs 0xA220A353 [d 1 0x3FF0000000000000, d 2 0x3FF0000000000000] (fun t => t.readX 6 == 1 && t.csr.fcsr == 0 && on t) = true := by decide +kernel
theorem test_flt_d :
    runs 0xA2209353 [d 1 0xBFF0000000000000] (fun t => t.readX 6 == 1 && t.csr.fcsr == 0 && on t) = true := by decide +kernel
theorem test_fle_d :
    runs 0xA2208353 [d 1 0x7FF8000000000000] (fun t => t.readX 6 == 0 && t.csr.fcsr == 0x10 && on t) = true := by decide +kernel
theorem test_fclass_d :
    runs 0xE2009353 [d 1 0] (fun t => t.readX 6 == 0x010 && t.csr.fcsr == 0 && on t) = true ∧
    runs 0xE2009353 [d 1 0x7FF0000000000000] (fun t => t.readX 6 == 0x080 && t.csr.fcsr == 0 && on t) = true ∧
    runs 0xE2009353 [d 1 0x8000000000000001] (fun t => t.readX 6 == 0x004 && t.csr.fcsr == 0 && on t) = true ∧
    runs 0xE2009353 [d 1 0x7FF0000000000001] (fun t => t.readX 6 == 0x100 && t.csr.fcsr == 0 && on t) = true ∧
    runs 0xE2009353 [d 1 0xFFFFFFFF3F800000] (fun t => t.readX 6 == 0x200 && t.csr.fcsr == 0 && on t) = true := by decide +kernel
theorem test_fcvt_w_d :
    runs 0xC2008353 [d 1 0x41DFFFFFFFE00000] (fun t => t.readX 6 == 0x7FFFFFFF && t.csr.fcsr == 0x10 && on t) = true ∧
    runs 0xC2009353 [d 1 0x41DFFFFFFFE00000] (fun t => t.readX 6 == 0x7FFFFFFF && t.csr.fcsr == 1 && on t) = true := by decide +kernel
theorem test_fcvt_wu_d :
    runs 0xC2109353 [d 1 0x41EFFFFFFFFCCCCD] (fun t => t.readX 6 == 0xFFFFFFFF && t.csr.fcsr == 1 && on t) = true := by decide +kernel
theorem test_fcvt_d_w :
    runs 0xD20370D3 [x 6 0xFFFFFFFF] (fun t => t.readF 1 == 0xBFF0000000000000 && t.csr.fcsr == 0 && on t) = true := by decide +kernel
theorem test_fcvt_d_wu :
    runs 0xD21370D3 [x 6 0xFFFFFFFF] (fun t => t.readF 1 == 0x41EFFFFFFFE00000 && t.csr.fcsr == 0 && on t) = true := by decide +kernel

/-! ## The Driver: one step each (60_exceptions.md, 95_test_vectors.md) -/

/-- The machine about to run a word with a handler at 0x00400100, UIE and the given enables set. -/
def armed (w : Nat) (utvec enables : Word) (events : List HostEvent) : State :=
  { ready w [code 0x00400100 0x13, c .utvec utvec, c .uie enables, c .ustatus 1] with inbox := [events] }

/-- VX1: an illegal word with no handler. -/
theorem test_illegal_word : runs 0xFFFFFFFF [] (fun t => trapped t 2 0xFFFFFFFF && t.steps == 1 &&
    t.driver == .stopped (.exception .illegalInstruction 2 0xFFFFFFFF 0x00400000)) = true := by decide +kernel
/-- R630: the handled trap of an environment call; UIE moves into UPIE. -/
theorem test_trap_handled : runs 0x00000073 [x 17 5, code 0x00400100 0x13, c .utvec 0x00400101, c .ustatus 1]
    (fun t => t.pc == 0x00400100 && t.csr.ucause == 8 && t.csr.uepc == 0x00400000 && t.csr.utval == 0 &&
      t.csr.ustatus == 0x10 && t.instret == 0 && t.driver == .running) = true := by decide +kernel
/-- VX2: no statement at `pc`. -/
theorem test_cliff : steps { State.reset with driver := .running } (fun t =>
    t.driver == .stopped .cliff && t.pc == 0x00400000 && t.steps == 0 && t.seq == 1) = true := by decide +kernel
/-- R353, R172: a target that is 2 modulo 4 faults at the next fetch. -/
theorem test_fetch_misaligned : steps { ready 0x13 [] with pc := 0x00400102 } (fun t => t.csr.ucause == 0 &&
    t.csr.uepc == 0x00400102 && t.csr.utval == 0x00400102 && t.pc == 0x00400106) = true := by decide +kernel
/-- VX4: a fetch from data. -/
theorem test_fetch_data : steps { ready 0x13 [] with pc := 0x10008000 } (fun t => t.csr.ucause == 1 &&
    t.csr.utval == 0x10008000 && t.pc == 0x10008004) = true := by decide +kernel
/-- Scenario D: an external interrupt is taken at the boundary of the iteration it is registered before. -/
theorem test_external_interrupt : steps (armed 0x00140413 0x00400100 0x100 [.register .external 0x2A]) (fun t =>
    t.readX 8 == 1 && t.pc == 0x00400100 && t.csr.uepc == 0x00400004 && t.csr.ucause == 0x80000008 &&
    t.csr.utval == 0x2A && t.csr.ustatus == 0x10 && t.ctl.external == none && t.csr.uip == 0) = true := by decide +kernel
/-- R626: an interrupt that is not enabled stays pending, and `uip` mirrors it. -/
theorem test_interrupt_disabled : steps (armed 0x00140413 0x00400100 0x010 [.register .external 0x2A]) (fun t =>
    t.pc == 0x00400004 && t.ctl.external == some 0x2A && t.csr.uip == 0x100 && t.csr.ucause == 0) = true := by decide +kernel
/-- R633: an enabled interrupt with no handler is consumed and stops the run. -/
theorem test_interrupt_no_handler : steps (armed 0x00140413 0x00400200 0x100 [.register .external 0x2A]) (fun t =>
    t.pc == 0x00400004 && t.csr.ustatus == 1 && t.ctl.external == none &&
    t.driver == .stopped (.exception .interrupt 8 0x2A 0x00400004)) = true := by decide +kernel
/-- R632: a vectored timer interrupt goes to BASE + 16. -/
theorem test_timer_vectored : steps { armed 0x00140413 0x00400101 0x010 [.register .timer 7] with
    text := [(0x00400000, 0x00140413), (0x00400110, 0x13)] } (fun t =>
    t.pc == 0x00400110 && t.csr.ucause == 0x80000004 && t.csr.utval == 7) = true := by decide +kernel
/-- R625, R632: a software interrupt goes to BASE and clears USIP. -/
theorem test_software_interrupt : steps (armed 0x0440E073 0x00400101 0x001 []) (fun t =>
    t.pc == 0x00400100 && t.csr.ucause == 0x80000000 && t.csr.utval == 0 && t.csr.uip == 0) = true := by decide +kernel
/-- R624: the trap of the iteration comes first, and the interrupt stays pending. -/
theorem test_trap_before_interrupt : steps { armed 0xFFFFFFFF 0x00400100 0x100 [.register .external 1] with steps := 0 }
    (fun t => t.pc == 0x00400100 && t.csr.ucause == 2 && t.ctl.external == some 1 && t.csr.uip == 0x100) = true := by
  decide +kernel
/-- VT1: the second registration of a kind fails and keeps the first payload. -/
theorem test_single_pending : steps { State.reset with inbox := [[.register .external 1, .register .external 2]] }
    (fun t => t.ctl.external == some 1 && t.outputs == [.registered .external false, .registered .external true]) = true := by
  decide +kernel
/-- R640: a breakpoint, the step budget and a bounded run, each after one iteration. -/
theorem test_terminations :
    steps { ready 0x13 [] with cfg := { Config.reference with breakpoints := [0x00400004] } }
      (fun t => t.driver == .stopped .breakpoint) = true ∧
    steps { ready 0x13 [] with cfg := { Config.reference with maxSteps := some 1 } }
      (fun t => t.driver == .stopped .maxSteps) = true ∧
    steps { ready 0x13 [] with inbox := [[.stop]] } (fun t => t.driver == .stopped .userStop && !t.stopRequested) = true ∧
    steps { ready 0x13 [] with driver := .ready, inbox := [[.step 2]] } (fun t => t.driver == .stepping 1) = true ∧
    steps { ready 0x13 [] with driver := .stepping 1 } (fun t => t.driver == .stopped .stepDone) = true := by decide +kernel
/-- Scenario C, one instruction: the step, then its undo. -/
theorem test_undo : steps { ready 0x00150293 [x 10 6] with driver := .stepping 1 } (fun t => t.readX 5 == 7 &&
    steps { t with inbox := [[.undo]] } (fun u => u.x == (ready 0x00150293 [x 10 6]).x && u.pc == 0x00400000 &&
      u.instret == 0 && u.csr.instret == 0 && u.ring == [] && u.steps == 1 && u.driver == .stopped .userStop)) = true := by
  decide +kernel
/-- R663, 90_conflicts.md C7: a jump to itself leaves one entry and no notification, and undoes on its own. -/
theorem test_undo_self_jump : steps (ready 0x0000006F []) (fun t => t.pc == 0x00400000 && t.ring.length == 1 &&
    t.outputs == [] && steps { t with driver := .stopped .userStop, inbox := [[.undo]] }
      (fun u => u.pc == 0x00400000 && u.instret == 0 && u.ring == [])) = true := by decide +kernel
/-- R52: a trap entry whose BASE is the advanced pc changes nothing in pc and records nothing for it. -/
theorem test_trap_entry_records_changes : steps (ready 0xFFFFFFFF [code 0x00400004 0x13, c .utvec 0x00400004, c .ustatus 1])
    (fun t => t.pc == 0x00400004 && t.ring.map (·.change) ==
      [.csr .ustatus 1, .csr .utval 0, .csr .uepc 0, .csr .ucause 0, .pc 0x00400000]) = true := by decide +kernel
/-- R4, R240, R601: another descriptor table. Its word for `add` adds, the reference word is illegal, and a CSR
instruction that traps reports the word that was fetched. -/
def ownTable (s : State) : State := { s with cfg := { s.cfg with descriptors :=
  [⟨"my.add", "my.add", .R, 0xFE00707F, 0x0000000B, .add⟩, ⟨"my.csr", "my.csr", .I, 0x0000707F, 0x0000102B, .csrrw⟩] } }
theorem test_descriptors_parameter :
    wellFormedTable (ownTable State.reset).cfg.descriptors = true ∧
    runs 0x01C3830B [ownTable, x 7 5, x 28 6] (fun t => t.readX 6 == 11 && on t) = true ∧
    runs 0x01C38333 [ownTable] (fun t => trapped t 2 0x01C38333) = true ∧
    runs 0x3003102B [ownTable] (fun t => trapped t 2 0x3003102B) = true := by decide +kernel
/-- R661: a host write is undone on its own, and the step below it stays. -/
theorem test_undo_host_write : steps { ready 0x00150293 [] with driver := .stepping 1 } (fun t =>
    steps { t with inbox := [[.setReg (.gpr 5) 9]] } (fun u => u.readX 5 == 9 && u.ring.length == 3 &&
      steps { u with inbox := [[.undo]] } (fun v => v.readX 5 == 1 && v.pc == 0x00400004 && v.instret == 1 &&
        v.ring == t.ring))) = true := by decide +kernel
/-- R680: a host write while the Driver runs is refused; R663: nothing to undo. -/
theorem test_host_refusals :
    Machine.step { ready 0x13 [] with inbox := [[.setReg (.gpr 5) 1]] } = .refused .hostWriteWhileRunning ∧
    steps { State.reset with inbox := [[.undo]] } (fun t => t.outputs == [.nothingToUndo] && t.driver == .ready) = true ∧
    Machine.step State.reset = .fault .driverIdle := ⟨rfl, by decide +kernel, rfl⟩
/-- R700, R702: a host's reset loads the program and goes to ENTRY. -/
theorem test_host_reset : steps { State.reset with
    driver := .stopped .cliff, inbox := [[.reset]],
    cfg := { Config.reference with entryLabel := some 0x00400010, program := ⟨[(0x00400010, 0x13)], [(0x10010000, 5)]⟩ } }
    (fun t => t.pc == 0x00400010 && t.text == [(0x00400010, 0x13)] && t.mem == [(0x10010000, 5)] && t.driver == .ready &&
      t.readX 2 == 0x7FFFEFFC) = true := by decide +kernel
/-- R424 (sbrk): the old top into a0; the new one is a multiple of 4. -/
theorem test_sbrk : runs 0x00000073 [x 17 9, x 10 5] (fun t => t.readX 10 == 0x10040000 && t.heapTop == 0x10040008 && on t) = true ∧
    runs 0x00000073 [x 17 9, x 10 0xFFFFFFFF] (fun t => t.driver == .stopped (.exit 1) && t.heapTop == 0x10040000) = true := by
  decide +kernel
/-- 44_system.md R436: UIE set by an instruction lets a pending interrupt in at the end of the same iteration. -/
theorem test_csr_write_enables_now : steps { armed 0x0000E073 0x00400100 0x100 [.register .external 3] with
    csr := { (armed 0 0x00400100 0x100 []).csr with ustatus := 0 } } (fun t =>
    t.pc == 0x00400100 && t.csr.uepc == 0x00400004 && t.csr.utval == 3) = true := by decide +kernel

/-! ## Witnesses: states and operands that meet the hypotheses of the obligations -/

/-- Decoder: a table that is well-formed, one that is not (two rows of equal popcount overlap), and one whose rows
overlap but differ in popcount, where the row with more fixed bits is found. -/
def row (mask pattern : Word) : Descriptor := ⟨"row", "row", .I, mask, pattern, .fenceI⟩
theorem test_witness_tables :
    wellFormedTable (descriptors.take 5) = true ∧ wellFormedTable [row 0x000000FF 0x73, row 0x0000017F 0x73] = false ∧
    wellFormedTable [row 0x0000007F 0x73, row 0x000000FF 0x73] = true ∧
    (decodeWith [row 0x0000007F 0x73, row 0x000000FF 0x73] 0x73).map (·.mask) = some 0x000000FF ∧
    (decodeWith [row 0x0000007F 0x73] 0x13).isNone = true := by decide +kernel
theorem test_witness_illegal_fields :
    (0x30200073 : Word).extractLsb' 0 7 = 0b1110011 ∧ (0x30200073 : Word).extractLsb' 12 3 = 0b000 ∧
    (0x00004073 : Word).extractLsb' 0 7 = 0b1110011 ∧ (0x00004073 : Word).extractLsb' 12 3 = 0b100 ∧
    (0x8FF0000F : Word).extractLsb' 28 4 ≠ 0 ∧ (0x0000808F : Word).extractLsb' 15 5 ≠ 0 ∧
    (0x0000008F : Word).extractLsb' 7 5 ≠ 0 ∧ (0x0010100F : Word).extractLsb' 20 12 ≠ 0 ∧
    decode 0x00004073 = none ∧ decode 0x0000808F = none ∧ decode 0x0000008F = none ∧ decode 0x0000000B = none ∧
    decode 0x0000002F = none ∧ decode 0x00000012 = none := by decide +kernel
/-- Encodings: a word of one mask of each shape carries its match. -/
theorem test_witness_encodes :
    (0xFFFFF2B7 : Word) &&& 0x7F = 0x37 ∧ (0xFFF3A313 : Word) &&& 0x707F = 0x2013 ∧ (0x41F3D313 : Word) &&& 0xFE00707F = 0x40005013 ∧
    (0x1820F043 : Word) &&& 0x0600007F = 0x43 ∧ (0x5800F053 : Word) &&& 0xFFF0007F = 0x58000053 ∧
    (0xE0009353 : Word) &&& 0xFFF0707F = 0xE0001053 ∧ (0x0FF0000F : Word) &&& 0xF00FFFFF = 0x0F ∧
    (0x1820F053 : Word) &&& 0xFE00007F = 0x18000053 := by decide
/-- Reset: a state that is not running, and parameters with a program, an entry label and accumulators. -/
theorem test_witness_reset : ({ State.reset with driver := .stopped .cliff } : State).active = false ∧
    applyEvent .reset { State.reset with driver := .stopped .cliff } = .next State.reset ∧
    (State.resetWith { Config.reference with accRegs := ["a", "b"], entryLabel := some 8 }).acc = [("a", 0), ("b", 0)] :=
  ⟨rfl, rfl, rfl⟩
/-- Recording: a set that changes something and one that changes nothing, in each bank and in memory. -/
theorem test_witness_sets :
    State.reset.readX 5 ≠ 7 ∧ State.reset.readX 5 = 0 ∧ State.reset.readF 5 ≠ 7 ∧
    State.reset.csr ≠ csrWritten State.reset.csr .ustatus 1 ∧ State.reset.csr = csrWritten State.reset.csr .ustatus 2 ∧
    State.reset.csr ≠ csrWritten State.reset.csr .frm 1 ∧ State.reset.csr = csrWritten State.reset.csr .cycle 1 ∧
    State.reset.storeChanges 0xFFFFFFFF .word 1 = true ∧ State.reset.storeChanges 0x10010000 .byte 0x100 = false ∧
    State.reset.storeChanges 0x00400000 .word 0 = true := by decide +kernel
theorem test_witness_csrs : Csr.cycle.isReadOnly = true ∧ Csr.fflags.isReadOnly = false ∧
    Csr.uie.backing ≠ Csr.fflags.backing ∧ csrOfNumber 0xC82 = some .instreth ∧ csrOfNumber 0x300 = none ∧
    Csr.timeh.number = 0xC81 := by decide
/-- Memory: the canonical form, the map's check, and the segments' first and last addresses. -/
theorem test_witness_memory : Memory.wf [(0x10010000, 5), (0xFFFFFFFF, 1)] = true ∧ Memory.wf [(1, 0)] = false ∧
    Memory.wf [(2, 1), (1, 1)] = false ∧ Memory.textWf [(0x00400000, 0)] = true ∧ Memory.textWf [(0x00400002, 0)] = false ∧
    MemMap.reference.wf = true ∧ State.reset.cfg.memMap.wf = true ∧ Memory.wf State.reset.mem = true := by decide +kernel
theorem test_witness_permissions :
    (permits .reference 0x003FFFFF .fetch, permits .reference 0x003FFFFF .read) = (false, false) ∧
    (permits .reference 0x00400000 .fetch, permits .reference 0x00400000 .read) = (true, false) ∧
    (permits .reference 0x0FFFFFFF .fetch, permits .reference 0x10000000 .fetch) = (true, false) ∧
    (permits .reference 0x10000000 .write, permits .reference 0x7FFFFFFF .write) = (true, true) ∧
    (permits .reference 0x80000000 .write, permits .reference 0x8FFFFFFF .fetch) = (false, true) ∧
    (permits .reference 0x90000000 .read, permits .reference 0xFFFFFFFF .write) = (true, true) ∧
    permits { Config.reference with smcEnabled := true } 0x00400000 .write = true := by decide +kernel
/-- Accesses: each clause at a boundary address, and an access that wraps and one that crosses two segments. -/
theorem test_witness_accesses :
    (0x10010001 : Word).toNat % bytesOf .half ≠ 0 ∧ (0x10010002 : Word).toNat % bytesOf .word ≠ 0 ∧
    (0x003FFFFC : Word).toNat % bytesOf .word = 0 ∧ permits State.reset.cfg 0x003FFFFC .read = false ∧
    permits State.reset.cfg 0x10000000 .read = true ∧ State.reset.readIsDraw 0x10000000 = false ∧
    State.reset.readIsDraw 0xFFFEFFFC = false ∧ State.reset.readIsDraw 0xFFFF0000 = true ∧
    (devices State.reset).readIsDraw 0xFFFF0000 = false ∧
    permits State.reset.cfg 0x7FFFFFFC .write = true ∧ permits State.reset.cfg (0x7FFFFFFC + 4) .write = false ∧
    permits State.reset.cfg 0xFFFFFFFC .write = true ∧ permits State.reset.cfg (0xFFFFFFFC + 4) .write = false ∧
    permits State.reset.cfg 0x0FFFFFFC .read = false := by decide +kernel
theorem test_witness_within : Within 0xFFFFFFFE 4 0x00000001 ∧ ¬ Within 0xFFFFFFFE 4 0x00000002 ∧ ¬ Within 8 4 7 := by
  unfold Within; decide
/-- The heap: a negative request, an empty one, one that ends at the limit, and one past it. -/
theorem test_witness_heap : (0x80000000 : Word).toInt < 0 ∧ State.reset.allocate 0x80000000 = none ∧
    (State.reset.allocate 0).isSome = true ∧ (State.reset.allocate 0x6FFC0000).isSome = true ∧
    State.reset.allocate 0x6FFC0001 = none := by decide +kernel
/-- An instruction answers a next state (the hypothesis of ReadOnlyCsrsKept, ProtectedMemoryKept, WhoSetsPc,
RoundingAndFlags and PendingInterrupts), one of each kind the conclusions name. -/
def answers (i : Instr) (s : State) (p : State → Bool) : Bool :=
  match exec i s with
  | .next t => p t
  | _ => false
theorem test_witness_exec_answers :
    answers (.sb 0 5 0) (smc State.reset) (fun t => t.iter.raised) = true ∧
    answers (.jal 0 0) State.reset (fun t => t.iter.pcSet) = true ∧
    answers (.bne 2 0 8) State.reset (fun t => t.iter.pcSet) = true ∧
    answers .uret State.reset (fun t => t.iter.pcSet) = true ∧
    answers (.csrrwi 0 0x003 31) State.reset (fun t => t.csr.fcsr == 31) = true ∧
    answers (.fdivS 0 1 2 0) (f 1 0x3F800000 (f 2 0 State.reset)) (fun t => t.csr.fcsr == 8) = true ∧
    serviceOf [(5, .hosted)] 5 = some .hosted := by decide +kernel
theorem test_witness_division : (2 : Word) ≠ 0 ∧ (remSigned 0xFFFFFFF9 2).toInt ≠ 0 ∧ (remSigned 0xFFFFFFF9 2).toInt < 0 := by
  decide
theorem test_witness_services : serviceOf State.reset.cfg.syscalls 10 = some .exitZero ∧
    serviceOf State.reset.cfg.syscalls 93 = some .exitA0 ∧ serviceOf State.reset.cfg.syscalls 17 = some .exitA0 ∧
    serviceOf State.reset.cfg.syscalls 9 = some .sbrk ∧ serviceOf State.reset.cfg.syscalls 0 = none := by decide
/-- Rounding modes: each code, static and dynamic, and those that stand for none. -/
theorem test_witness_rounding_modes : State.reset.resolveRm 0b000 = some .rne ∧ State.reset.resolveRm 0b100 = some .rmm ∧
    State.reset.resolveRm 0b101 = none ∧ State.reset.resolveRm 0b111 = some .rne ∧
    (c .fcsr 0x60 State.reset).resolveRm 0b111 = some .rup ∧ (c .fcsr 0xA0 State.reset).resolveRm 0b111 = none ∧
    (c .fcsr 0xE0 State.reset).resolveRm 0b111 = none := by decide
theorem test_witness_sync_idle : SyncIdle State.reset ∧ SyncIdle (ready 0x13 []) := ⟨rfl, rfl⟩

/-- Values: what a few patterns stand for, in both formats. -/
theorem test_witness_patterns : unpack .S 0x7F800001 = .nan true ∧ unpack .S 0x7FC00000 = .nan false ∧
    unpack .S 0xFF800000 = .inf true ∧ unpack .S 0x7F800000 = .inf false ∧ unpack .S 0x80000000 = .fin true 0 (-149) ∧
    unpack .D 0x7FF0000000000001 = .nan true ∧ unpack .D 0x3FF0000000000000 = .fin false (2 ^ 52) (-52) ∧
    zeroOf .S true = 0x80000000 ∧ zeroOf .D false = 0 ∧ canonicalNan .D = 0x7FF8000000000000 ∧
    (unpack .S 0x7FC00000).isSnan = false ∧ signOf .S 0xBF800000 = true := by decide +kernel
theorem test_witness_value_one : HasValue .S 0x3F800000 1 := ⟨false, 2 ^ 23, -23, by decide +kernel, by norm_num [exactValue]⟩
theorem test_witness_value_minus_half : HasValue .S 0xBF000000 (-1 / 2) :=
  ⟨true, 2 ^ 23, -24, by decide +kernel, by norm_num [exactValue]⟩
theorem test_witness_value_three : HasValue .D 0x4008000000000000 3 :=
  ⟨false, 3 * 2 ^ 51, -51, by decide +kernel, by norm_num [exactValue]⟩
theorem test_witness_value_zero (f : Fmt) (neg : Bool) : HasValue f (zeroOf f neg) 0 := by
  refine ⟨neg, 0, f.minQuantum, ?_, by cases neg <;> simp [exactValue]⟩
  cases f <;> cases neg <;> decide +kernel
/-- Rounding: a result that is finite, one that overflows to infinity, one out of an integer's range. -/
theorem test_witness_rounding : roundTo .S .rne false 1 0 = (0x3F800000, 0) ∧ roundTo .S .rup false 1 128 = (0x7F800000, 5) ∧
    roundTo .S .rdn true 1 128 = (0xFF800000, 5) ∧ roundTo .S .rne false (2 ^ 24 + 1) 0 = (0x4B800000, 1) ∧
    (fpuToInt .S true .rne 0x4F000000, fpuToInt .S false .rtz 0xBF000000) = ((0x7FFFFFFF, 0x10), (0, 1)) := by decide +kernel

/-- R460: a tie goes to the even last bit under RNE, below and above, and away from zero under RMM. -/
theorem test_witness_ties : roundTo .S .rne false (2 ^ 24 + 1) 0 = (0x4B800000, 1) ∧
    roundTo .S .rne false (2 ^ 24 + 3) 0 = (0x4B800002, 1) ∧ roundTo .S .rmm false (2 ^ 24 + 1) 0 = (0x4B800001, 1) ∧
    roundTo .S .rmm true (2 ^ 24 + 1) 0 = (0xCB800001, 1) := by decide +kernel
/-- R491: overflow to nearest begins at the halfway point above the greatest finite value, and toward zero at 2^128. -/
theorem test_witness_overflow : roundTo .S .rne false (2 ^ 25 - 1) 103 = (0x7F800000, 5) ∧
    roundTo .S .rne false ((2 ^ 25 - 1) * 2 ^ 10 - 1) 93 = (0x7F7FFFFF, 1) ∧
    roundTo .S .rtz true 1 128 = (0xFF7FFFFF, 5) ∧ roundTo .S .rtz true (2 ^ 25 - 1) 103 = (0xFF7FFFFF, 1) ∧
    roundTo .S .rup false (2 ^ 25 - 1) 103 = (0x7F800000, 5) := by decide +kernel
/-- R491: tininess is detected after rounding: at the halfway point below the least normal value, just below it, and in
the directed modes. -/
theorem test_witness_underflow : roundTo .S .rne false (2 ^ 25 - 1) (-151) = (0x00800000, 1) ∧
    roundTo .S .rne false (2 ^ 26 - 3) (-152) = (0x00800000, 3) ∧ roundTo .S .rtz false (2 ^ 25 - 1) (-151) = (0x007FFFFF, 3) ∧
    roundTo .S .rup false (2 ^ 24 - 1) (-150) = (0x00800000, 3) ∧ roundTo .S .rne false 1 (-149) = (1, 0) := by decide +kernel
/-- Infinite operands (log 23): 1 / ∞, -∞ / 1, the root of ∞, and a finite value less ∞. -/
theorem test_witness_infinities : fpuDiv .S .rne 0x3F800000 0xFF800000 = (0x80000000, 0) ∧
    fpuDiv .S .rne 0xFF800000 0x3F800000 = (0xFF800000, 0) ∧ fpuSqrt .S .rne 0x7F800000 = (0x7F800000, 0) ∧
    fpuSub .S .rne 0x3F800000 0x7F800000 = (0xFF800000, 0) ∧ fpuMul .S .rne 0xBF800000 0x7F800000 = (0xFF800000, 0) := by
  decide +kernel

/-- Traps: with a handler and UIE set, and without either. -/
theorem test_witness_handled : Handled (armed 0x13 0x00400100 0 []) ∧ ¬ Handled (armed 0x13 0x00400200 0 []) ∧
    ¬ Handled (ready 0x13 [code 0x00400100 0x13, c .utvec 0x00400100]) := by
  unfold Handled HandlerAt; decide +kernel
/-- The controller: each record idle and pending. -/
theorem test_witness_controller : (⟨none, some 3, none, false⟩ : Controller).irq .external = none ∧
    (⟨none, some 3, none, false⟩ : Controller).irq .timer = some 3 ∧
    (⟨none, none, some ⟨.illegalInstruction 0, 4⟩, true⟩ : Controller).sync = some ⟨.illegalInstruction 0, 4⟩ := by decide
/-- Servicing: each source enabled and pending, alone and below another, and an iteration that raised. -/
def pendingAll : State := { armed 0x13 0x00400100 0x111 [] with ctl := ⟨some 1, some 2, none, true⟩ }
theorem test_witness_interrupts : pendingAll.csr.ustatus.getLsbD 0 = true ∧ pendingAll.csr.uie.getLsbD 8 = true ∧
    pendingAll.ctl.external = some 1 ∧ pendingAll.ctl.timer = some 2 ∧ pendingAll.cfg.usipDelivery = true ∧
    (c .uip 1 pendingAll).csr.uip.getLsbD 0 = true ∧ pendingAll.iter.raised = false ∧
    (pendingAll.serviceIrq.csr.ucause, pendingAll.serviceIrq.csr.utval) = (0x80000008, 1) ∧
    (c .uip 1 (c .uie 0x011 pendingAll)).serviceIrq.csr.ucause = 0x80000000 ∧
    (c .uip 1 (c .uie 0x010 pendingAll)).serviceIrq.csr.ucause = 0x80000004 ∧
    (c .uie 0 pendingAll).serviceIrq = c .uie 0 pendingAll := by decide +kernel
/-- The mirror keeps every other bit of `uip`: USIP stays where its interrupt is not enabled, and goes where it is serviced. -/
theorem test_witness_mirror : (c .uip 0xFFFFFFFF (c .uie 0 pendingAll)).conclude.csr.uip = 0xFFFFFFFF ∧
    (c .uip 0xFFFFFFFF (c .uie 0 { pendingAll with ctl := ⟨none, none, none, true⟩ })).conclude.csr.uip = 0xFFFFFEEF ∧
    (c .uip 0xFFFFFFFF (c .uie 1 pendingAll)).conclude.csr.uip = 0xFFFFFFFE ∧
    (c .uip 0xFFFFFFFF pendingAll).conclude.csr.uip = 0xFFFFFEFF := by decide +kernel
/-- The rest of an iteration: an exit, a raise, and neither. -/
theorem test_witness_conclude : ({ State.reset with driver := .stopped (.exit 3) } : State).exited = true ∧
    State.reset.exited = false ∧ State.reset.iter.raised = false ∧
    ({ State.reset with iter := { State.reset.iter with raised := true } } : State).iter.raised = true ∧
    State.reset.csr.ustatus.getLsbD 0 = false := by decide
/-- Termination: a Driver that is not stopped; the budget reached exactly; a bounded run at 1 and above. -/
theorem test_witness_termination :
    (∀ r, (ready 0x13 []).driver ≠ .stopped r) ∧ (∀ n, (ready 0x13 []).driver ≠ .stepping n) ∧
    ({ ready 0x13 [] with steps := 3, cfg := { Config.reference with maxSteps := some 3 } } : State).terminate.driver
      = .stopped .maxSteps ∧
    ({ ready 0x13 [] with steps := 2, cfg := { Config.reference with maxSteps := some 3 } } : State).terminate.driver
      = .running ∧
    ({ ready 0x13 [] with driver := .stepping 2, stopRequested := true } : State).terminate.driver = .stopped .userStop :=
  ⟨nofun, nofun, by decide +kernel, by decide +kernel, by decide +kernel⟩
theorem test_witness_running : Running (ready 0x13 []) ∧ Running { ready 0x13 [] with driver := .stepping 1 } ∧
    ¬ Running State.reset := ⟨⟨rfl, rfl⟩, ⟨rfl, rfl⟩, by intro h; exact absurd h.2 (by decide)⟩
theorem test_witness_statement : StatementAt (ready 0x3003102B []) 0x3003102B ∧ ¬ StatementAt State.reset 0 :=
  ⟨by unfold StatementAt; decide +kernel, by unfold StatementAt; decide⟩
/-- Fetch: each of the four outcomes. -/
theorem test_witness_fetch : (ready 0x13 []).fetch 0x00400000 = .word 0x13 ∧ (ready 0x13 []).fetch 0x00400004 = .cliff ∧
    (ready 0x13 []).fetch 0x00400002 = .raised (.addressFault .fetch .misaligned 0x00400002) ∧
    (ready 0x13 []).fetch 0x003FFFFC = .raised (.addressFault .fetch .access 0x003FFFFC) ∧
    decode 0x13 = some (.addi 0 0 0) ∧ (decodeWith State.reset.cfg.descriptors 0x13).map (·.op) = some .addi ∧
    (decodeWith State.reset.cfg.descriptors 0).isNone = true := by decide +kernel
/-- Names and the accumulators: each kind of name, an accumulator of its own, and one that bears another's name (log 21). -/
def withAcc (s : State) : State := { s with acc := [("hi", 3), ("pc", 4)] }
theorem test_witness_names : (withAcc State.reset).locOf (.named "hi") = some (.acc "hi") ∧
    (withAcc State.reset).locOf (.named "pc") = some .pc ∧ (withAcc State.reset).locOf (.named "lo") = none ∧
    State.reset.locOf (.named "fp") = some (.gpr 8) ∧ State.reset.locOf (.named "x31") = some (.gpr 31) ∧
    State.reset.locOf (.named "t6") = some (.gpr 31) ∧ State.reset.locOf (.named "f10") = some (.fpr 10) ∧
    State.reset.locOf (.named "ft8") = some (.fpr 28) ∧ State.reset.locOf (.named "instreth") = some (.csr .instreth) := by
  decide +kernel
theorem test_witness_accumulators : accFind (withAcc State.reset).acc "hi" = some 3 ∧ accFind (withAcc State.reset).acc "lo" = none ∧
    ((withAcc State.reset).setLoc (.acc "hi") 0x500000007).getLoc (.acc "hi") = 7 ∧
    ((withAcc State.reset).setLoc (.acc "hi") 7).getLoc (.acc "pc") = 4 ∧
    (State.reset.setLoc (.gpr 5) 0x500000007).getLoc (.gpr 5) = 7 := by decide +kernel
/-- Host commands: a paused, a busy and a terminally stopped Driver; a register the bank holds and one it does not;
a device's write inside MMIO and one that leaves it. -/
theorem test_witness_host :
    applyEvent .run State.reset = .next { State.reset with driver := .running } ∧
    applyEvent (.step 0) State.reset = .refused .commandNotAccepted ∧
    applyEvent .run { State.reset with driver := .stopped .cliff } = .refused .commandNotAccepted ∧
    applyEvent .undo (ready 0x13 []) = .refused .hostWriteWhileRunning ∧
    State.reset.locOf (.named "sp") = some (.gpr 2) ∧ State.reset.locOf (.csr 0x300) = none ∧
    State.reset.locOf (.gpr 31) = some (.gpr 31) ∧ State.reset.locOf (.gpr 32) = none ∧
    State.reset.locOf (.fpr 32) = none ∧ State.reset.locOf (.csr 0x1003) = none ∧
    State.reset.locOf (.csr 0x003) = some (.csr .fcsr) ∧ State.reset.ctl.irq .timer = none ∧
    ({ State.reset with ctl := ⟨some 1, none, none, false⟩ } : State).ctl.irq .external ≠ none ∧
    State.reset.locOf (.named "frm") = some (.csr .frm) ∧ State.reset.locOf (.named "mstatus") = none ∧
    State.reset.deviceMayWrite 0xFFFF0000 .word = true ∧ State.reset.deviceMayWrite 0xFFFEFFFF .half = false ∧
    State.reset.deviceMayWrite 0xFFFFFFFE .word = false :=
  ⟨rfl, rfl, rfl, rfl, by decide +kernel⟩
theorem test_witness_mmio : (∀ b, Within 0xFFFF0000 (bytesOf .byte) b → classAt State.reset.cfg.memMap b = .mmio) := by
  intro b hb
  have h0 : b - 0xFFFF0000 = 0 := BitVec.eq_of_toNat_eq (Nat.lt_one_iff.mp hb)
  have : b = 0xFFFF0000 := by
    have := congrArg (· + (0xFFFF0000 : Word)) h0
    simpa using this
  subst this; decide +kernel
/-- The invariant holds of a machine with an instruction to run. -/
theorem test_witness_invariant : Inv (ready 0x00150293 []) where
  memCanonical := by decide
  textCanonical := by decide +kernel
  ustatusMask := by decide
  fcsrMask := by decide
  x0 := by decide
  syncIdle := rfl
  countsEqual := rfl
  cycleShown := by decide
  instretShown := by decide
  stepsBound := by decide
  stepsLeft := nofun
  accNames := rfl
  ringBound := by decide
  ringChanges := nofun
  ringSteps := nofun
  ringCounts := nofun
  iterCounts := rfl
  iterStep := nofun
/-- Undo: a step of that machine leaves entries, fewer than the ring holds, and does not end early. -/
theorem test_witness_undo : (ready 0x00150293 []).recording = true ∧ steps (ready 0x00150293 []) (fun t =>
    !t.exited && t.driver != .stopped .cliff && t.ring.length == 2 && t.ring.length < t.cfg.backstepCapacity) = true ∧
    (ready 0x00150293 []).iter.step = none ∧ (ready 0x00150293 []).ring.length < (ready 0x00150293 []).cfg.backstepCapacity ∧
    (ready 0x00150293 []).setLoc (.csr .frm) 7 ≠ ready 0x00150293 [] ∧
    (ready 0x00150293 []).rawWrite 0x00400000 .byte 1 ≠ ready 0x00150293 [] := by
  decide +kernel

end Sys2Proof.Tests
end

/-! SUPPORT and PROOFS. The scope family (00_scope.md): one iteration of a running machine, from the fetch to the
concluded outcome of `exec`. -/

namespace Sys2Proof.Machine

/-! ### The parts of an iteration -/

/-- Over the reference table, the parameter's decoder is `decode` (R4). -/
theorem decodeWith_descriptors_build (w : Word) :
    (decodeWith descriptors w).map (fun d => d.build w) = decode w := by
  unfold decodeWith decode
  rw [groupTables_descriptors]

/-- With no event before it, a step is an iteration (R620). -/
theorem step_of_running {s : State} (h : Running s) : step s = iterate s := by
  obtain ⟨hinbox, hactive⟩ := h
  simp [step, driverStep, hinbox, hactive]

/-- A statement at an aligned executable address is fetched (R172). -/
theorem State.fetch_eq_word {s : State} {a w : Word} (haligned : a.toNat % 4 = 0)
    (hexec : executableAt s.cfg.memMap a = true) (hw : storeFind s.text a.toNat = some w) : s.fetch a = .word w := by
  have ha : aligned a .word = true := by simpa [aligned, bytesOf] using haligned
  simp [State.fetch, ha, hexec, hw]

/-- Where a descriptor accepts the word, the word's behaviour is that of the instruction it builds (R240). -/
theorem execWord_of_decodeWith {s : State} {w : Word} {d : Descriptor} (h : decodeWith s.cfg.descriptors w = some d) :
    execWord w s = exec (d.build w) s := by
  simp [execWord, h]

/-- An iteration that fetches a word is the word's behaviour and its conclusion (R620). -/
theorem iterate_of_fetch {s : State} {w : Word} (h : s.beginStep.fetch s.pc = .word w) :
    iterate s = concludeResult (execWord w s.beginStep) := by
  have hpc : s.beginStep.pc = s.pc := rfl
  simp [iterate, hpc, h]

/-- A running machine whose statement a descriptor accepts runs the instruction and concludes (R4, R240, R620). -/
theorem step_eq_concludeResult_exec {s : State} {w : Word} {d : Descriptor} (hrun : Running s)
    (haligned : s.pc.toNat % 4 = 0) (hexec : executableAt s.cfg.memMap s.pc = true) (hw : StatementAt s w)
    (hd : decodeWith s.cfg.descriptors w = some d) : step s = concludeResult (exec (d.build w) s.beginStep) := by
  have hfetch : s.beginStep.fetch s.pc = .word w := State.fetch_eq_word haligned hexec hw
  rw [step_of_running hrun, iterate_of_fetch hfetch, execWord_of_decodeWith (s := s.beginStep) hd]

/-- Settles O55: the step is the concluded outcome of `exec`, read off for each of the three outcomes. -/
theorem stepRunsDecodedInstruction : Obligations.StepRunsDecodedInstruction := by
  refine ⟨rfl, fun s w d hrun haligned hexec hw hd => ?_⟩
  have hstep := step_eq_concludeResult_exec hrun haligned hexec hw hd
  refine ⟨fun hds => ?decoded, fun m h => ?next, fun r h => ?fault, fun r h => ?refused, rfl⟩
  case decoded =>
    rw [hds] at hd
    rw [← decodeWith_descriptors_build, hd]
    rfl
  case next => rw [hstep, h]; rfl
  case fault => rw [hstep, h]; rfl
  case refused => rw [hstep, h]; rfl

end Sys2Proof.Machine

/-! SUPPORT and PROOFS. The state family (10_state.md): the register banks, what a set records, the state after reset,
the invariant every step keeps, and what no instruction does to the control/status bank. -/

namespace Sys2Proof.Machine

/-! ### Recording (R52, R660) -/

/-- The entry a change pushes (R660). -/
def State.entryOf (s : State) (c : Change) : BackEntry :=
  ⟨c, s.iter.step.map (fun _ => s.iter.cur), s.iter.step.bind (fun _ => storeFind s.text s.iter.cur.toNat),
    s.iter.step, s.iter.cycles, s.iter.instret⟩

/-- The ring after a change is recorded (R660, R662). -/
theorem State.record_ring (s : State) (c : Change) : (s.record c).ring =
    if s.recording then (s.entryOf c :: s.ring).take s.cfg.backstepCapacity else s.ring := by
  unfold State.record
  split <;> rfl

/-- Recording changes the ring only. -/
theorem State.record_eq (s : State) (c : Change) : s.record c = { s with ring := (s.record c).ring } := by
  unfold State.record
  split <;> rfl

/-- An entry of the ring after a change is recorded is the new one or was there before. -/
theorem State.mem_record_ring {s : State} {c : Change} {e : BackEntry} (h : e ∈ (s.record c).ring) :
    e = s.entryOf c ∨ e ∈ s.ring := by
  rw [State.record_ring] at h
  split at h
  · exact List.mem_cons.mp (List.mem_of_mem_take h)
  · exact .inr h

/-! ### The control/status bank (R81-R86) -/

/-- The numbers of the bank are distinct (R86). -/
theorem csrOfNumber_eq_some_iff (n : CsrNum) (c : Csr) : csrOfNumber n = some c ↔ c.number = n := by
  constructor
  · intro h
    simpa using List.find?_some h
  · rintro rfl
    cases c <;> rfl

/-- A write of a read-only register does nothing (R81). -/
theorem State.csrWrite_of_readOnly (s : State) {c : Csr} (h : c.isReadOnly = true) (v : Word) : s.csrWrite c v = s := by
  have hk : c.kind = .readOnly := by simpa [Csr.isReadOnly] using h
  simp [State.csrWrite, hk]

/-- A write of a read-only register leaves the bank as it is (R81). -/
theorem csrWritten_of_readOnly (t : Csrs) {c : Csr} (h : c.isReadOnly = true) (v : Word) : csrWritten t c v = t := by
  cases c
  case cycle | time | instret | cycleh | timeh | instreth => rfl
  all_goals exact absurd h (by decide)

/-- No write reaches a read-only register (R84). -/
theorem csrWritten_get_of_readOnly (t : Csrs) (c : Csr) {d : Csr} (h : d.isReadOnly = true) (v : Word) :
    (csrWritten t c v).get d = t.get d := by
  cases d
  case cycle | time | instret | cycleh | timeh | instreth => cases c <;> rfl
  all_goals exact absurd h (by decide)

/-- A write leaves what every register with other backing bits shows: of each pair of registers, either the stored words
differ or the premise is false. -/
theorem csrShown_csrWritten_of_ne (t : Csrs) {c d : Csr} (h : d.backing ≠ c.backing) (v : Word) :
    csrShown (csrWritten t c v) d = csrShown t d := by
  cases c <;> cases d <;> simp_all [csrShown, csrWritten, Csr.backing, Csrs.get]

/-- The written bank is the old one with the backing register replaced. -/
theorem csrWritten_eq_set (t : Csrs) {c : Csr} (h : c.isReadOnly = false) (v : Word) :
    csrWritten t c v = t.set c.backing ((csrWritten t c v).get c.backing) := by
  cases c
  case cycle | time | instret | cycleh | timeh | instreth => exact absurd h (by decide)
  all_goals rfl

/-- A write of a register that is not read-only is a store into the one that holds its bits (R81, R82). -/
theorem State.csrWrite_eq_csrStore (s : State) {c : Csr} (h : c.isReadOnly = false) (v : Word) :
    s.csrWrite c v = s.csrStore c.backing ((csrWritten s.csr c v).get c.backing) := by
  cases c
  case cycle | time | instret | cycleh | timeh | instreth => exact absurd h (by decide)
  all_goals simp [State.csrWrite, csrWritten, Csr.kind, Csr.backing, Csrs.get]

theorem csrShown_reset (c : Csr) : csrShown .reset c = 0 := by
  cases c <;> decide

/-- The bits under the mask are the ones written. -/
theorem masked_and_same (a v m : Word) : ((a &&& ~~~m) ||| (v &&& m)) &&& m = v &&& m := by
  ext i hi
  cases hm : m[i] <;> simp [hm]

/-- The bits of another mask stay. -/
theorem masked_and_disjoint (a v m k : Word) (h : m &&& k = 0) : ((a &&& ~~~m) ||| (v &&& m)) &&& k = a &&& k := by
  ext i hi
  have hi0 : (m[i] && k[i]) = false := by simpa using congrArg (·[i]) h
  cases hm : m[i] <;> simp_all

/-- The three bits of `frm` in their place and back. -/
theorem frm_place (v : Word) : ((v <<< 5) &&& 0xE0) >>> 5 = v &&& 7 := by
  refine BitVec.eq_of_getLsbD_eq fun i hi => ?_
  have hm : ∀ i < 32, (0xE0 : Word).getLsbD (5 + i) = (7 : Word).getLsbD i := by decide
  have h7 : ∀ i < 32, (7 : Word).getLsbD i = true → 5 + i < 32 := by decide
  simp only [BitVec.getLsbD_ushiftRight, BitVec.getLsbD_and, BitVec.getLsbD_shiftLeft, hm i hi]
  cases hb : (7 : Word).getLsbD i with
  | false => simp only [Bool.and_false]
  | true => simp [h7 i hi hb]

/-- Settles O12: the table by evaluation, and each clause from what a read shows and a write leaves. -/
theorem csrBank : Obligations.CsrBank := by
  refine ⟨rfl, rfl, rfl, csrOfNumber_eq_some_iff, fun s c v => ⟨s.csrRead_eq c, s.csrWrite_csr c v,
    fun hc => s.csrWrite_of_readOnly hc v, fun _ d hd => ?_, ?_, ?_, ?_, ?_⟩⟩ <;>
    simp only [State.csrRead_eq, State.csrWrite_csr]
  · exact csrShown_csrWritten_of_ne s.csr hd v
  · exact masked_and_same s.csr.fcsr v 0x1F
  · exact congrArg (fun u : Word => u >>> 5) (masked_and_disjoint s.csr.fcsr v 0x1F 0xE0 (by decide))
  · exact (congrArg (fun u : Word => u >>> 5) (masked_and_same s.csr.fcsr (v <<< 5) 0xE0)).trans (frm_place v)
  · exact masked_and_disjoint s.csr.fcsr (v <<< 5) 0xE0 0x1F (by decide)

/-! ### Sets that change something, and sets that do not (R52, R55, R83, R660) -/

section

variable (s : State)

theorem State.writeX_of_ne {r : Reg} {v : Word} (h0 : r ≠ 0) (h : s.readX r ≠ v) : s.writeX r v =
    { s.record (.gpr r (s.readX r)) with x := s.x.set r.toNat v r.isLt }.emit (.gprChanged r v) := by
  rw [State.writeX, if_neg h0, if_neg h]

theorem State.writeX_of_same {r : Reg} {v : Word} (h : r = 0 ∨ s.readX r = v) : s.writeX r v = s := by
  rcases h with rfl | h
  · rfl
  · simp [State.writeX, h]

theorem State.writePc_of_ne {v : Word} (h : s.pc ≠ v) :
    s.writePc v = { s.record (.pc s.pc) with pc := v }.emit (.pcChanged v) := if_neg h

/-- The ring after a jump: the write of `pc` is recorded even where it changes nothing (R663, log 11). -/
theorem State.jumpTo_ring (v : Word) : (s.jumpTo v).ring = (s.record (.pc s.pc)).ring := by
  unfold State.jumpTo
  dsimp only
  split
  · rfl
  · rename_i h
    rw [s.writePc_of_ne h]
    rfl

theorem State.writeF_of_ne {r : Reg} {v : DWord} (h : s.readF r ≠ v) : s.writeF r v =
    { s.record (.fpr r (s.readF r)) with f := s.f.set r.toNat v r.isLt }.emit (.fprChanged r v) := if_neg h

theorem State.csrStore_of_ne {c : Csr} {v : Word} (h : s.csr.get c ≠ v) : s.csrStore c v =
    { s.record (.csr c (s.csr.get c)) with csr := s.csr.set c v }.emit (.csrChanged c v) := if_neg h

/-- An ordinary write that changes the bank is a recorded store into the backing register. -/
theorem State.csrWrite_of_changes {c : Csr} {v : Word} (h : s.csr ≠ csrWritten s.csr c v) : s.csrWrite c v =
    { s.record (.csr c.backing (s.csr.get c.backing)) with csr := csrWritten s.csr c v }.emit
      (.csrChanged c.backing ((csrWritten s.csr c v).get c.backing)) := by
  cases hc : c.isReadOnly with
  | true => exact absurd (csrWritten_of_readOnly s.csr hc v).symm h
  | false =>
    have hset := csrWritten_eq_set s.csr hc v
    have hne : s.csr.get c.backing ≠ (csrWritten s.csr c v).get c.backing := fun he => h (by
      rw [hset, ← he, Csrs.set_get])
    rw [s.csrWrite_eq_csrStore hc, s.csrStore_of_ne hne, ← hset]

/-- An ordinary write that changes nothing in the bank does nothing (R52, R83). -/
theorem State.csrWrite_of_same {c : Csr} {v : Word} (h : s.csr = csrWritten s.csr c v) : s.csrWrite c v = s := by
  cases hc : c.isReadOnly with
  | true => exact s.csrWrite_of_readOnly hc v
  | false => rw [s.csrWrite_eq_csrStore hc, ← h, State.csrStore, if_pos rfl]

theorem State.writeAcc_of_ne {n : String} {old v : Word} (hf : accFind s.acc n = some old) (h : old ≠ v) :
    s.writeAcc n v = { s.record (.acc n old) with acc := accPut s.acc n v }.emit (.accChanged n v) := by
  simp only [State.writeAcc, hf]
  exact if_neg h

theorem State.writeAcc_of_eq {n : String} {v : Word} (h : accFind s.acc n = none ∨ accFind s.acc n = some v) :
    s.writeAcc n v = s := by
  rcases h with h | h <;> simp [State.writeAcc, h]

theorem State.rawWrite_of_changes {a : Word} {w : Width} {v : Word} (h : s.storeChanges a w v = true) :
    s.rawWrite a w v =
      ((s.record (.store a w (s.savedCells a w))).setBytes a v (bytesOf w)).emit (.memChanged a w (maskWidth w v)) :=
  if_pos h

end

/-- Settles O11: each set that changes something is a recorded one, whose ring `record` gives. -/
theorem setsAreRecorded : Obligations.SetsAreRecorded := by
  intro s entry pushed
  have hring (c : Change) : (s.record c).ring = pushed c := s.record_ring c
  refine ⟨fun r v h0 h => ?_, fun r v h => s.writeX_of_same h, fun v h => ?_, if_pos rfl, fun v => ?_, fun r v h => ?_,
    fun r => if_pos rfl, fun c v h => ?_, fun c v h => s.csrWrite_of_same h, fun n old v hf h => ?_,
    fun n v h => s.writeAcc_of_eq h, fun a w v h => ?_, fun a w v h => if_neg (by simp [h])⟩
  · rw [s.writeX_of_ne h0 h]
    exact ⟨hring _, by simp [State.emit]⟩
  · rw [s.writePc_of_ne h]
    exact ⟨hring _, by simp [State.emit]⟩
  · rw [s.jumpTo_ring, hring]
  · rw [s.writeF_of_ne h]
    exact ⟨hring _, by simp [State.emit]⟩
  · rw [s.csrWrite_of_changes h]
    exact ⟨hring _, by simp [State.emit]⟩
  · rw [s.writeAcc_of_ne hf h]
    exact ⟨hring _, by simp [State.emit]⟩
  · rw [s.rawWrite_of_changes h]
    exact ⟨by simp [hring], by simp [State.emit]⟩

/-! ### Singles in a box (R71) -/

/-- A register reads as a single where its upper half is all ones (R71). -/
theorem unboxSingle_eq (v : DWord) :
    unboxSingle v = if v >>> 32 = 0xFFFFFFFF then v.setWidth 32 else 0x7FC00000 := by
  have hlow : v.extractLsb' 0 32 = v.setWidth 32 := (BitVec.setWidth_eq_extractLsb' (by decide)).symm
  have hhigh : v.extractLsb' 32 32 = 0xFFFFFFFF ↔ v >>> 32 = 0xFFFFFFFF := by
    rw [← BitVec.toNat_inj, ← BitVec.toNat_inj, BitVec.extractLsb'_toNat, BitVec.toNat_ushiftRight,
      Nat.mod_eq_of_lt (by have := v.isLt; omega)]
    rfl
  unfold unboxSingle nanSingle
  rw [hlow]
  simp only [hhigh]

theorem boxSingle_eq (v : Word) : boxSingle v = 0xFFFFFFFF00000000 ||| v.setWidth 64 := by
  rw [boxSingle, BitVec.append_def, BitVec.setWidth'_eq]
  rfl

theorem unboxSingle_boxSingle (v : Word) : unboxSingle (boxSingle v) = v := by
  have hhigh : (boxSingle v).extractLsb' 32 32 = 0xFFFFFFFF := BitVec.extractLsb'_append_eq_left
  have hlow : (boxSingle v).extractLsb' 0 32 = v := BitVec.extractLsb'_append_eq_right
  rw [unboxSingle, if_pos hhigh, hlow]

/-- Settles O10: read after write in both banks, and the single held in a box. -/
theorem registerReadWrite : Obligations.RegisterReadWrite :=
  ⟨fun s i j v => ⟨s.readX_zero, s.writeX_zero v, s.readX_writeX i j v⟩, fun s i j v => s.readF_writeF i j v,
    fun s i => unboxSingle_eq (s.readF i), fun s i v => by
      have hread : (s.writeS i v).readF i = boxSingle v := by simp [State.writeS, State.readF_writeF]
      exact ⟨hread.trans (boxSingle_eq v), by rw [State.readS, hread, unboxSingle_boxSingle]⟩⟩

/-! ### The state after reset (R700, R704) -/

/-- BYTES after a program is loaded: the last byte given for an address stands (R700, log 28). -/
theorem memGet_loadData (ps : List (Word × Byte)) (a : Word) :
    memGet (loadData ps) a.toNat = ((ps.reverse.find? (fun p => p.1 == a)).map (·.2)).getD 0 := by
  induction ps using List.reverseRecOn with
  | nil => rfl
  | append_singleton ps p ih =>
    have hl : loadData (ps ++ [p]) = memSet (loadData ps) p.1.toNat p.2 := by simp [loadData]
    rw [hl, memGet_memSet (Memory.wf_keysRise (loadData_wf ps)), List.reverse_append, List.reverse_singleton,
      List.singleton_append, List.find?_cons]
    by_cases h : p.1 = a
    · simp [h]
    · have hne : a.toNat ≠ p.1.toNat := fun e => h (BitVec.eq_of_toNat_eq e.symm)
      have hb : (p.1 == a) = false := by simpa using h
      rw [if_neg hne, ih, hb]

/-- TEXT after a program is loaded: the last statement given for a word address stands (R700, log 28). -/
theorem storeFind_loadText (ps : List (Word × Word)) (k : Nat) :
    storeFind (loadText ps) k = (ps.reverse.find? (fun p => (p.1 &&& 0xFFFFFFFC).toNat == k)).map (·.2) := by
  induction ps using List.reverseRecOn with
  | nil => rfl
  | append_singleton ps p ih =>
    have hl : loadText (ps ++ [p]) = storePut (loadText ps) (textKey p.1) p.2 := by simp [loadText]
    have hk : textKey p.1 = (p.1 &&& 0xFFFFFFFC).toNat := rfl
    rw [hl, storeFind_put, hk, List.reverse_append, List.reverse_singleton, List.singleton_append, List.find?_cons]
    by_cases h : (p.1 &&& 0xFFFFFFFC).toNat = k
    · rw [if_pos h.symm, beq_iff_eq.mpr h]
      rfl
    · have hb : ((p.1 &&& 0xFFFFFFFC).toNat == k) = false := by simpa using h
      rw [if_neg (Ne.symm h), ih, hb]

/-- The general registers after reset (R59). -/
theorem readX_resetWith (c : Config) (r : Reg) : (State.resetWith c).readX r =
    if r = 3 then c.memMap.globalPointer else if r = 2 then c.memMap.stackPointer else 0 := by
  have h3 : 3 = r.toNat ↔ r = 3 := eq_comm.trans (BitVec.toNat_inj (y := 3))
  have h2 : 2 = r.toNat ↔ r = 2 := eq_comm.trans (BitVec.toNat_inj (y := 2))
  simp only [State.readX, State.resetWith, resetGprs, Vector.getElem_set, Vector.getElem_replicate, h3, h2]
  by_cases h0 : r = 0
  · subst h0
    rfl
  · rw [if_neg h0]

/-- Settles O9: a host's reset leaves the reset state but for the inbox, the outputs and the draws. -/
theorem resetState : Obligations.ResetState := by
  refine ⟨fun c t ht => ?_, by decide, by decide, by decide, by decide, by decide, by decide⟩
  have hreset : ∃ i o d, t = { State.resetWith c with inbox := i, outputs := o, draws := d } := by
    rcases ht with rfl | ⟨s, rfl, hs, h⟩
    · exact ⟨_, _, _, rfl⟩
    · have hp : applyEvent .reset s = .next s.hostReset := by simp [applyEvent, whilePaused, hs]
      rw [hp] at h
      exact ⟨_, _, _, (Host.Outcome.next.inj h).symm⟩
  obtain ⟨i, o, d, rfl⟩ := hreset
  have hx : ∀ r : Reg, ({ State.resetWith c with inbox := i, outputs := o, draws := d } : State).readX r = _ :=
    readX_resetWith c
  refine ⟨rfl, hx 2, hx 3, fun r h2 h3 => ?_, rfl, fun r => ?_, fun r => ?_, rfl, memGet_loadData _,
    storeFind_loadText _, rfl, rfl, rfl, rfl, rfl, rfl, rfl, rfl, rfl, rfl, rfl, rfl, rfl⟩
  · rw [hx, if_neg h3, if_neg h2]
  · simp [State.readF, State.resetWith]
  · rw [State.csrRead_eq]
    exact csrShown_reset r

/-- The machine after reset meets the invariant. -/
theorem resetWith_inv (c : Config) : Inv (State.resetWith c) where
  memCanonical := loadData_wf _
  textCanonical := loadText_wf _
  ustatusMask := BitVec.zero_and
  fcsrMask := BitVec.zero_and
  x0 := by simp [State.resetWith, resetGprs]
  syncIdle := rfl
  countsEqual := rfl
  cycleShown := (by decide : (0 : Word) ++ (0 : Word) = (0 : BitVec 64))
  instretShown := (by decide : (0 : Word) ++ (0 : Word) = (0 : BitVec 64))
  stepsBound := Nat.le_refl 0
  stepsLeft := nofun
  accNames := by simp [State.resetWith, Function.comp_def]
  ringBound := Nat.zero_le _
  ringChanges := nofun
  ringSteps := nofun
  ringCounts := nofun
  iterCounts := rfl
  iterStep := nofun

/-- Settles O58: every field of the invariant read off the reset values, under any parameters. -/
theorem resetMeetsInvariant : Obligations.ResetMeetsInvariant := resetWith_inv

/-! ### The invariant: recording and the register banks -/

/-- An entry of the BackStepper that can be undone at the step number `seq`. -/
structure EntryOk (seq : Nat) (e : BackEntry) : Prop where
  change : changeOk e.change
  step : ∀ k, e.step = some k → k ≤ seq
  counts : e.cycles = e.instret

/-- The entries of the ring are ones that can be undone. -/
theorem Inv.entryOk {s : State} (h : Inv s) : ∀ e ∈ s.ring, EntryOk s.seq e := fun e he =>
  ⟨h.ringChanges e he, h.ringSteps e he, h.ringCounts e he⟩

/-- The entry a change pushes is one that can be undone. -/
theorem Inv.entryOf {s : State} (h : Inv s) {c : Change} (hc : changeOk c) : EntryOk s.seq (s.entryOf c) :=
  ⟨hc, h.iterStep, h.iterCounts⟩

/-- The ring replaced by entries that can be undone. -/
theorem Inv.withRing {s : State} (h : Inv s) {l : List BackEntry} (hlen : l.length ≤ s.cfg.backstepCapacity)
    (hl : ∀ e ∈ l, EntryOk s.seq e) : Inv { s with ring := l } :=
  { h with
    ringBound := hlen
    ringChanges := fun e he => (hl e he).change
    ringSteps := fun e he => (hl e he).step
    ringCounts := fun e he => (hl e he).counts }

theorem Inv.record {s : State} (h : Inv s) {c : Change} (hc : changeOk c) : Inv (s.record c) := by
  rw [State.record_eq]
  refine h.withRing ?_ fun e he => ?_
  · rw [State.record_ring]
    split
    · exact List.length_take_le _ _
    · exact h.ringBound
  · rcases State.mem_record_ring he with rfl | he
    · exact h.entryOf hc
    · exact h.entryOk e he

theorem Inv.emit {s : State} (h : Inv s) (o : Output) : Inv (s.emit o) := { h with }

theorem Inv.stop {s : State} (h : Inv s) (r : StopReason) : Inv (s.stop r) := { h with stepsLeft := nofun }

/-- A write of a general register keeps the cell behind x0. -/
theorem Inv.writeX {s : State} (h : Inv s) (r : Reg) (v : Word) : Inv (s.writeX r v) := by
  by_cases hsame : r = 0 ∨ s.readX r = v
  · rwa [s.writeX_of_same hsame]
  · obtain ⟨hr, hv⟩ := not_or.mp hsame
    have h0 := s.writeX_x0 r v
    rw [s.writeX_of_ne hr hv] at h0 ⊢
    exact { h.record (c := .gpr r (s.readX r)) trivial with x0 := h0.trans h.x0 }

theorem Inv.writeF {s : State} (h : Inv s) (r : Reg) (v : DWord) : Inv (s.writeF r v) := by
  unfold State.writeF
  split
  · exact h
  · exact { h.record (c := .fpr r (s.readF r)) trivial with }

theorem Inv.writePc {s : State} (h : Inv s) (v : Word) : Inv (s.writePc v) := by
  unfold State.writePc
  split
  · exact h
  · exact { h.record (c := .pc s.pc) trivial with }

theorem Inv.jumpTo {s : State} (h : Inv s) (v : Word) : Inv (s.jumpTo v) := by
  unfold State.jumpTo
  dsimp only
  split
  · exact { h.record (c := .pc s.pc) trivial with }
  · exact { h.writePc v with }

/-- Replacing an accumulator's value keeps the names of the bank (R58). -/
theorem accPut_names (l : List (String × Word)) (name : String) (v : Word) :
    (accPut l name v).map (·.1) = l.map (·.1) := by
  induction l with
  | nil => rfl
  | cons p rest ih =>
    obtain ⟨n, w⟩ := p
    unfold accPut
    split
    · rfl
    · simpa using ih

theorem Inv.writeAcc {s : State} (h : Inv s) (name : String) (v : Word) : Inv (s.writeAcc name v) := by
  unfold State.writeAcc
  split
  · exact h
  · split
    · exact h
    · rename_i old _ _
      have hr := h.record (c := .acc name old) trivial
      exact { hr with accNames := (accPut_names s.acc name v).trans (by simpa using hr.accNames) }

theorem Inv.heap {s : State} (h : Inv s) (top : Nat) : Inv { s.record (.heap s.heapTop) with heapTop := top } :=
  { h.record (c := .heap s.heapTop) trivial with }

/-! ### The invariant: the control/status bank and the counts -/

/-- The stored word behind a register replaced by one it may hold. -/
theorem Inv.csrSet {s : State} (h : Inv s) {c : Csr} {v : Word} (hc : csrPriorOk c v) :
    Inv { s with csr := s.csr.set c v } := by
  cases c
  case ustatus => exact { h with ustatusMask := hc }
  case fflags | frm | fcsr => exact { h with fcsrMask := hc }
  case uie | utvec | uscratch | uepc | ucause | utval | uip => exact { h with }
  case cycle | time | instret | cycleh | timeh | instreth => cases hc

/-- The stored word behind a register is one it may hold. -/
theorem Inv.csrPriorOk_get {s : State} (h : Inv s) {c : Csr} (hc : c.isReadOnly = false) :
    csrPriorOk c (s.csr.get c) := by
  cases c
  case ustatus => exact h.ustatusMask
  case fflags | frm | fcsr => exact h.fcsrMask
  case uie | utvec | uscratch | uepc | ucause | utval | uip => rfl
  case cycle | time | instret | cycleh | timeh | instreth => exact absurd hc (by decide)

theorem isReadOnly_of_csrPriorOk {c : Csr} {v : Word} (h : csrPriorOk c v) : c.isReadOnly = false := by
  cases c
  case cycle | time | instret | cycleh | timeh | instreth => exact h
  all_goals rfl

theorem Inv.csrStore {s : State} (h : Inv s) {c : Csr} {v : Word} (hc : csrPriorOk c v) : Inv (s.csrStore c v) := by
  unfold State.csrStore
  split
  · exact h
  · have hr := h.record (c := .csr c (s.csr.get c)) (h.csrPriorOk_get (isReadOnly_of_csrPriorOk hc))
    have hs := hr.csrSet hc
    rw [State.record_csr] at hs
    exact hs.emit _

/-- A write under a mask keeps the bits outside a wider mask clear. -/
theorem masked_and_not (a v m big : Word) (ha : a &&& ~~~big = 0) (hm : m &&& ~~~big = 0) :
    ((a &&& ~~~m) ||| (v &&& m)) &&& ~~~big = 0 := by
  have h1 : (a &&& ~~~m) &&& ~~~big = (a &&& ~~~big) &&& ~~~m := by
    rw [BitVec.and_assoc, BitVec.and_comm (~~~m), ← BitVec.and_assoc]
  rw [BitVec.and_or_distrib_right, h1, ha, BitVec.and_assoc, hm]
  simp

/-- An ordinary write keeps the masks of `ustatus` and `fcsr` (R87, R92). -/
theorem Inv.csrPriorOk_csrWritten {s : State} (h : Inv s) {c : Csr} (hc : c.isReadOnly = false) (v : Word) :
    csrPriorOk c.backing ((csrWritten s.csr c v).get c.backing) := by
  cases c
  case ustatus => exact masked_and_not _ _ _ _ h.ustatusMask (by decide)
  case fflags | frm | fcsr => exact masked_and_not _ _ _ _ h.fcsrMask (by decide)
  case uie | utvec | uscratch | uepc | ucause | utval | uip => rfl
  case cycle | time | instret | cycleh | timeh | instreth => exact absurd hc (by decide)

theorem Inv.csrWrite {s : State} (h : Inv s) (c : Csr) (v : Word) : Inv (s.csrWrite c v) := by
  cases hc : c.isReadOnly with
  | true => rwa [s.csrWrite_of_readOnly hc]
  | false =>
    rw [s.csrWrite_eq_csrStore hc]
    exact h.csrStore (h.csrPriorOk_csrWritten hc v)

/-- The two halves of a count give it back. -/
theorem halves_append (n : BitVec 64) : n.extractLsb' 32 32 ++ n.extractLsb' 0 32 = n := by
  refine BitVec.eq_of_getLsbD_eq fun i hi => ?_
  rw [BitVec.getLsbD_append, BitVec.getLsbD_extractLsb', BitVec.getLsbD_extractLsb']
  by_cases h : i < 32
  · simp [h]
  · have h2 : 32 + (i - 32) = i := by omega
    have h3 : i - 32 < 32 := by omega
    simp [h, h2, h3]

/-- Showing the counts replaces their four registers (R650). -/
theorem State.showCounts_eq (s : State) : s.showCounts =
    { s with csr := { s.csr with
      cycle := s.cycles.extractLsb' 0 32, cycleh := s.cycles.extractLsb' 32 32
      instret := s.instret.extractLsb' 0 32, instreth := s.instret.extractLsb' 32 32 } } := rfl

/-- Equal counts, put in place and shown (R650). -/
theorem Inv.showCounts {s : State} (h : Inv s) (n : BitVec 64) :
    Inv ({ s with cycles := n, instret := n } : State).showCounts := by
  rw [State.showCounts_eq]
  exact { h with
    countsEqual := rfl
    cycleShown := halves_append n
    instretShown := halves_append n }

/-! ### The invariant: memory -/

theorem Inv.setByte {s : State} (h : Inv s) (a : Word) (b : Byte) : Inv (s.setByte a b) := by
  obtain ⟨hm, ht⟩ := State.setByte_memOk ⟨h.memCanonical, h.textCanonical⟩ a b
  unfold State.setByte at hm ht ⊢
  split
  · rename_i hx
    rw [if_pos hx] at ht
    exact { h with textCanonical := ht }
  · rename_i hx
    rw [if_neg hx] at hm
    exact { h with memCanonical := hm }

theorem Inv.setBytes {s : State} (h : Inv s) (a v : Word) (n : Nat) : Inv (s.setBytes a v n) := by
  induction n with
  | zero => exact h
  | succ n ih => exact ih.setByte _ _

theorem textKey_cellOk (a : Word) (p : Option Word) : cellOk (.text (textKey a) p) := ⟨textKey_lt a, textKey_mod a⟩

/-- The cells an access saves can be put back. -/
theorem State.savedCells_ok (s : State) (a : Word) (w : Width) : ∀ c ∈ s.savedCells a w, cellOk c := by
  intro c hc
  obtain ⟨i, -, rfl⟩ := List.mem_map.mp hc
  unfold State.savedCell
  split
  · exact textKey_cellOk _ _
  · exact BitVec.isLt _

theorem Inv.rawWrite {s : State} (h : Inv s) (a : Word) (w : Width) (v : Word) : Inv (s.rawWrite a w v) := by
  unfold State.rawWrite
  split
  · exact ((h.record (c := .store a w _) (s.savedCells_ok a w)).setBytes a v _).emit _
  · exact h

/-! ### The ends of a behaviour (R16, R620) -/

/-- The state once the exception `e` is taken, with no synchronous record pending. -/
def State.trapped (s : State) (e : Exc) : State :=
  ({ s with iter := { s.iter with raised := true } }.writePc (s.iter.cur + 4)).deliverSync ⟨e, s.iter.cur⟩

/-- Taking an exception answers a next state only where no record is pending, and then it is the trapped one. -/
theorem takeException_next {s t : State} {e : Exc} (h : takeException e s = .next t) : t = s.trapped e := by
  cases hs : s.ctl.sync with
  | none =>
    rw [takeException_eq hs] at h
    exact (Host.Outcome.next.inj h).symm
  | some r => simp [takeException, Controller.registerSync, hs] at h

/-- The three ends of a behaviour. -/
theorem finish_next {b : Behaviour} {t : State} (h : finish b = .next t) :
    t = b.final.advance ∨ (∃ e, t = b.final.trapped e) ∨ ∃ code, t = b.final.stop (.exit code) := by
  cases b with
  | done s => exact .inl (Host.Outcome.next.inj h).symm
  | raise e s => exact .inr (.inl ⟨e, takeException_next h⟩)
  | exit code s => exact .inr (.inr ⟨code, (Host.Outcome.next.inj h).symm⟩)

/-- What every action keeps, a sequence of actions keeps. -/
theorem actions_keep {P : State → Prop} (hact : ∀ {s t}, Action s t → P s → P t) {s t : State} (h : Actions s t)
    (hs : P s) : P t := by
  induction h with
  | refl => exact hs
  | tail _ ha ih => exact hact ha ih

/-- What every action keeps and every end of a behaviour keeps, every instruction keeps (`exec_acted`). -/
theorem exec_keeps {P : State → Prop} (hact : ∀ {s t}, Action s t → P s → P t) (hadv : ∀ s, P s → P s.advance)
    (htrap : ∀ s e, P s → P (s.trapped e)) (hexit : ∀ s code, P s → P (s.stop (.exit code)))
    {i : Instr} {s t : State} (hs : P s.startIter) (h : exec i s = .next t) : P t := by
  obtain ⟨b, hb, hacts⟩ := exec_acted i s
  have hfinal : P b.final := actions_keep hact hacts hs
  rcases finish_next (hb.symm.trans h) with rfl | ⟨e, rfl⟩ | ⟨code, rfl⟩
  · exact hadv _ hfinal
  · exact htrap _ e hfinal
  · exact hexit _ code hfinal

/-! ### The invariant: an iteration (R620) -/

theorem action_inv {s t : State} (h : Action s t) (hs : Inv s) : Inv t := by
  cases h with
  | gpr r v => exact hs.writeX r v
  | fpr r v => exact hs.writeF r v
  | csr c v => exact hs.csrWrite c v
  | store a w v => exact hs.rawWrite a w v
  | jump v => exact hs.jumpTo v
  | heap top => exact hs.heap top
  | draw => exact { hs with }
  | breakpoint => exact { hs with }

/-- No action of a behaviour counts a step or numbers one. -/
theorem action_counters {s t : State} (h : Action s t) : t.steps = s.steps ∧ t.seq = s.seq := by
  cases h <;> simp

theorem Inv.advance {s : State} (h : Inv s) : Inv s.advance := by
  unfold State.advance
  split
  · exact h
  · exact h.writePc _

theorem Inv.writeTrapRecord {s : State} (h : Inv s) (cause epc tval : Word) : Inv (s.writeTrapRecord cause epc tval) :=
  ((h.csrWrite _ _).csrWrite _ _).csrWrite _ _

theorem Inv.deliverSync {s : State} (h : Inv s) (r : SyncRecord) : Inv (s.deliverSync r) := by
  have hw := h.writeTrapRecord (excCode r.exc) r.savedPc (excTval r.exc)
  unfold State.deliverSync
  split
  · exact (hw.csrWrite .ustatus _).writePc _
  · exact hw.stop _

theorem Inv.trapped {s : State} (h : Inv s) (e : Exc) : Inv (s.trapped e) := by
  have hr : Inv { s with iter := { s.iter with raised := true } } := { h with }
  exact (hr.writePc _).deliverSync _

/-- Within an iteration: the invariant holds, and the iteration has its number but is not yet counted (R642, R661). -/
structure Counting (s : State) : Prop where
  inv : Inv s
  behind : s.steps < s.seq

theorem Counting.of_eq {s t : State} (h : Counting s) (hi : Inv t) (hc : t.steps = s.steps ∧ t.seq = s.seq) :
    Counting t := ⟨hi, by rw [hc.1, hc.2]; exact h.behind⟩

theorem Counting.trapped {s : State} (h : Counting s) (e : Exc) : Counting (s.trapped e) :=
  h.of_eq (h.inv.trapped e) (by simp [State.trapped])

theorem Inv.startIter {s : State} (h : Inv s) : Inv s.startIter :=
  { h with
    iterCounts := h.countsEqual
    iterStep := fun _ hk => (Option.some.inj hk).ge }

/-- The start of an iteration gives it its number. -/
theorem Inv.beginStep {s : State} (h : Inv s) : Counting s.beginStep where
  inv := Inv.startIter { h with
    stepsBound := Nat.le_succ_of_le h.stepsBound
    ringSteps := fun e he k hk => Nat.le_succ_of_le (h.ringSteps e he k hk)
    iterStep := fun k hk => Nat.le_succ_of_le (h.iterStep k hk) }
  behind := Nat.lt_succ_of_le h.stepsBound

/-- An instruction within an iteration. -/
theorem Counting.exec {s t : State} {i : Instr} (hs : Counting s) (h : exec i s = .next t) : Counting t :=
  exec_keeps (P := Counting) (fun ha hp => hp.of_eq (action_inv ha hp.inv) (action_counters ha))
    (fun _ hp => hp.of_eq hp.inv.advance (by simp)) (fun _ e hp => hp.trapped e)
    (fun _ _ hp => hp.of_eq (hp.inv.stop _) (by simp)) (hs.of_eq hs.inv.startIter (by simp)) h

theorem Counting.execWord {s t : State} {w : Word} (hs : Counting s) (h : execWord w s = .next t) : Counting t := by
  unfold Machine.execWord at h
  split at h
  · exact hs.exec h
  · exact takeException_next h ▸ hs.trapped _

theorem Inv.countRetired {s : State} (h : Inv s) : Inv s.countRetired := by
  unfold State.countRetired
  split
  · exact h
  · have hs := h.showCounts (s.cycles + 1)
    rwa [show ({ s with cycles := s.cycles + 1, instret := s.instret + 1 } : State) =
      { s with cycles := s.cycles + 1, instret := s.cycles + 1 } by rw [h.countsEqual]]

theorem Inv.drawTime {s : State} (h : Inv s) : Inv s.drawTime := { h with }

theorem Inv.interruptEntry {s : State} (h : Inv s) (code p : Word) : Inv (s.interruptEntry code p) := by
  have hw := h.writeTrapRecord (0x80000000 ||| code) s.pc p
  unfold State.interruptEntry
  dsimp only
  split
  · exact (hw.csrWrite _ _).writePc _
  · exact hw.stop _

/-- The records of the outside kinds are no part of the invariant. -/
theorem Inv.withCtl {s : State} (h : Inv s) {c : Controller} (hc : c.sync = s.ctl.sync) : Inv { s with ctl := c } :=
  { h with syncIdle := hc.trans h.syncIdle }

theorem Controller.setIrq_sync (c : Controller) (k : IrqKind) (r : Option Word) : (c.setIrq k r).sync = c.sync := by
  cases k <;> rfl

theorem Inv.takeIrq {s : State} (h : Inv s) (k : IrqKind) (code : Word) : Inv (s.takeIrq k code) := by
  unfold State.takeIrq Controller.claimIrq
  cases s.ctl.irq k with
  | none => exact h
  | some p => exact (h.withCtl (s.ctl.setIrq_sync k none)).interruptEntry code p

theorem Inv.serviceIrq {s : State} (h : Inv s) : Inv s.serviceIrq := by
  unfold State.serviceIrq
  split_ifs
  · exact h
  · exact h.takeIrq _ _
  · exact (h.csrWrite _ _).interruptEntry _ _
  · exact h.takeIrq _ _
  · exact h

theorem Inv.clearCheck {s : State} (h : Inv s) : Inv s.clearCheck := { h with }

theorem Inv.mirrorUip {s : State} (h : Inv s) : Inv s.mirrorUip := h.csrWrite _ _

theorem Inv.terminate {s : State} (h : Inv s) : Inv s.terminate := by
  unfold State.terminate
  split
  · exact h
  split_ifs
  · exact h.stop _
  · exact h.stop _
  · exact { h with stepsLeft := nofun }
  split
  · split_ifs
    · exact h.stop _
    · exact { h with stepsLeft := fun n hn => by have := DriverState.stepping.inj hn; omega }
  · exact h

@[simp] theorem State.countRetired_counters (s : State) :
    s.countRetired.steps = s.steps ∧ s.countRetired.seq = s.seq := by
  unfold State.countRetired
  split <;> simp

@[simp] theorem State.takeIrq_counters (s : State) (k : IrqKind) (code : Word) :
    (s.takeIrq k code).steps = s.steps ∧ (s.takeIrq k code).seq = s.seq := by
  unfold State.takeIrq
  split <;> simp

@[simp] theorem State.serviceIrq_counters (s : State) :
    s.serviceIrq.steps = s.steps ∧ s.serviceIrq.seq = s.seq := by
  unfold State.serviceIrq
  split_ifs <;> simp

/-- An iteration's step counted (R642). -/
theorem Inv.counted {s : State} (h : Counting s) : Inv { s with steps := s.steps + 1 } :=
  { h.inv with stepsBound := h.behind }

/-- The conclusion of an iteration counts the step. -/
theorem Counting.conclude {s : State} (h : Counting s) : Inv s.conclude := by
  unfold State.conclude
  split
  · exact Inv.counted h
  · have hi : Inv s.countRetired.drawTime.serviceIrq.clearCheck.mirrorUip :=
      h.inv.countRetired.drawTime.serviceIrq.clearCheck.mirrorUip
    exact (Inv.counted (h.of_eq hi (by simp [State.mirrorUip, State.clearCheck, State.drawTime]))).terminate

theorem concludeResult_next {r : Result} {t : State} (h : concludeResult r = .next t) :
    ∃ u, r = .next u ∧ t = u.conclude := by
  cases r with
  | next u => exact ⟨u, rfl, (Host.Outcome.next.inj h).symm⟩
  | fault | refused => cases h

theorem Inv.iterate {s t : State} (hs : Inv s) (h : iterate s = .next t) : Inv t := by
  have hb := hs.beginStep
  unfold Machine.iterate at h
  dsimp only at h
  split at h
  · cases h
    exact hb.inv.stop _
  · obtain ⟨u, hu, rfl⟩ := concludeResult_next h
    exact (takeException_next hu ▸ hb.trapped _).conclude
  · obtain ⟨u, hu, rfl⟩ := concludeResult_next h
    exact (hb.execWord hu).conclude

/-! ### The invariant: undo (R661-R665) -/

theorem Inv.restoreCell {s : State} (h : Inv s) {c : SavedCell} (hc : cellOk c) : Inv (s.restoreCell c) := by
  match c, hc with
  | .byte _ v, ha => exact { h with memCanonical := memSet_wf h.memCanonical ha v }
  | .text _ (some w), ⟨hlt, hmod⟩ => exact { h with textCanonical := textPut_wf h.textCanonical hlt hmod w }
  | .text k none, _ => exact { h with textCanonical := textErase_wf h.textCanonical k }

theorem Inv.restoreCells {cells : List SavedCell} {s : State} (h : Inv s) (hc : ∀ c ∈ cells, cellOk c) :
    Inv (cells.foldl State.restoreCell s) := by
  induction cells generalizing s with
  | nil => exact h
  | cons c rest ih =>
    obtain ⟨hc1, hrest⟩ := List.forall_mem_cons.mp hc
    exact ih (h.restoreCell hc1) hrest

theorem Inv.applyInverse {s : State} (h : Inv s) {e : BackEntry} (he : changeOk e.change) : Inv (s.applyInverse e) := by
  obtain ⟨change, savedPc, word, g, cyc, ins⟩ := e
  have hs : Inv (s.applyInverse ⟨change, none, word, g, cyc, ins⟩) := by
    cases change with
    | gpr r prior => exact h.writeX r prior
    | acc name prior => exact h.writeAcc name prior
    | pc prior => exact h.writePc prior
    | fpr r prior => exact h.writeF r prior
    | csr c prior => exact h.csrStore he
    | store a w cells => exact (h.restoreCells he).emit _
    | heap prior => exact { h with }
  cases savedPc with
  | none => exact hs
  | some p => exact hs.writePc p

/-- Putting cells back numbers no step and keeps the parameters. -/
theorem State.restoreCells_frame (cells : List SavedCell) (s : State) :
    (cells.foldl State.restoreCell s).seq = s.seq ∧ (cells.foldl State.restoreCell s).cfg = s.cfg := by
  induction cells generalizing s with
  | nil => exact ⟨rfl, rfl⟩
  | cons c rest ih =>
    have hc : (s.restoreCell c).seq = s.seq ∧ (s.restoreCell c).cfg = s.cfg := by
      rcases c with _ | ⟨k, _ | w⟩ <;> exact ⟨rfl, rfl⟩
    exact ⟨(ih _).1.trans hc.1, (ih _).2.trans hc.2⟩

/-- Undoing an entry numbers no step and keeps the parameters. -/
theorem State.applyInverse_frame (s : State) (e : BackEntry) :
    (s.applyInverse e).seq = s.seq ∧ (s.applyInverse e).cfg = s.cfg := by
  obtain ⟨change, savedPc, word, g, cyc, ins⟩ := e
  cases change <;> cases savedPc <;> simp [State.applyInverse, State.restoreCells_frame]

/-- Undoing the entries of a step keeps the invariant, where each entry left can be undone. -/
theorem Inv.undoGroup {s : State} (h : Inv s) (g : Option Nat) {l : List BackEntry}
    (hlen : l.length ≤ s.cfg.backstepCapacity) (hl : ∀ e ∈ l, EntryOk s.seq e) : Inv (s.undoGroup g l) := by
  induction l generalizing s with
  | nil => exact h.withRing (Nat.zero_le _) nofun
  | cons e rest ih =>
    obtain ⟨he, hrest⟩ := List.forall_mem_cons.mp hl
    obtain ⟨hseq, hcfg⟩ := s.applyInverse_frame e
    unfold State.undoGroup
    split
    · refine ih (h.applyInverse he.change) ?_ ?_
      · rw [hcfg]
        exact Nat.le_of_succ_le hlen
      · rwa [hseq]
    · exact h.withRing hlen hl

theorem Inv.restoreCounts {s : State} (h : Inv s) {e : BackEntry} (he : e.cycles = e.instret) :
    Inv (s.restoreCounts e) := by
  unfold State.restoreCounts
  split
  · rw [← he]
    exact h.showCounts e.cycles
  · exact h

theorem Inv.undo {s : State} (h : Inv s) : Inv s.undo := by
  unfold State.undo
  split
  · exact h.emit _
  · rename_i e rest hring
    have hentries := h.entryOk
    have hlen := h.ringBound
    rw [hring] at hentries hlen
    obtain ⟨he, hrest⟩ := List.forall_mem_cons.mp hentries
    have hoff : Inv { s with recording := false } := { h with }
    obtain ⟨hseq, hcfg⟩ := State.applyInverse_frame { s with recording := false } e
    have hgroup := (hoff.applyInverse he.change).undoGroup e.step (l := rest)
      (by rw [hcfg]; exact Nat.le_of_succ_le hlen) (by rwa [hseq])
    exact { hgroup.restoreCounts he.counts with stepsLeft := nofun }

/-! ### The invariant: events at a boundary (R613, R621, R680, R700) -/

theorem Inv.setLoc {s : State} (h : Inv s) (l : RegLoc) (v : DWord) : Inv (s.setLoc l v) := by
  cases l with
  | gpr r => exact h.writeX r _
  | pc => exact h.writePc _
  | fpr r => exact h.writeF r v
  | csr c => exact h.csrWrite c _
  | acc name => exact h.writeAcc name _

theorem Controller.registerIrq_sync (c : Controller) (k : IrqKind) (p : Word) : (c.registerIrq k p).1.sync = c.sync := by
  unfold Controller.registerIrq
  split
  · rfl
  · exact c.setIrq_sync k (some p)

/-- A host's reset differs from the reset state only in what no part of the invariant speaks of. -/
theorem Inv.hostReset (s : State) : Inv s.hostReset := { resetWith_inv s.cfg with }

theorem Inv.of_whilePaused {s t u : State} (h : whilePaused s t = .next u) (ht : Inv t) : Inv u := by
  unfold whilePaused at h
  split at h
  · cases h
  · cases h
    exact ht

theorem Inv.applyEvent {s t : State} (hs : Inv s) {e : HostEvent} (h : applyEvent e s = .next t) : Inv t := by
  cases e with
  | run =>
    simp only [Machine.applyEvent] at h
    split at h <;> cases h
    exact { hs with stepsLeft := nofun }
  | step n =>
    simp only [Machine.applyEvent] at h
    split at h <;> cases h
    rename_i hn
    obtain ⟨-, hle⟩ := Bool.and_eq_true_iff.mp hn
    exact { hs with stepsLeft := fun k hk => DriverState.stepping.inj hk ▸ of_decide_eq_true hle }
  | stop => cases h; exact { hs with }
  | reset => exact .of_whilePaused h (.hostReset s)
  | undo => exact .of_whilePaused h hs.undo
  | getReg r =>
    simp only [Machine.applyEvent] at h
    split at h <;> cases h <;> exact hs.emit _
  | setReg r v =>
    simp only [Machine.applyEvent] at h
    split at h
    · exact .of_whilePaused h ((hs.setLoc _ v).emit _)
    · exact .of_whilePaused h (hs.emit _)
  | getMem a w => cases h; exact hs.emit _
  | setMem a w v => exact .of_whilePaused h (hs.rawWrite a w v)
  | queryStop => cases h; exact hs.emit _
  | register k p => cases h; exact (hs.withCtl (s.ctl.registerIrq_sync k p)).emit _
  | deviceWrite a w v =>
    simp only [Machine.applyEvent] at h
    split at h <;> cases h
    exact hs.rawWrite a w v

theorem Inv.applyEvents {es : List HostEvent} {s t : State} (hs : Inv s) (h : applyEvents es s = .next t) : Inv t := by
  induction es generalizing s with
  | nil => cases h; exact hs
  | cons e rest ih =>
    unfold Machine.applyEvents at h
    split at h
    · rename_i u hu
      exact ih (hs.applyEvent hu) h
    all_goals cases h

theorem Inv.atBoundary {s : State} (h : Inv s) : Inv s.atBoundary := { h with iterStep := nofun }

/-- Settles O59: the events of the batch keep the invariant one by one, and so does the iteration that follows them. -/
theorem stepKeepsInvariant : Obligations.StepKeepsInvariant := by
  intro s t hs h
  unfold step driverStep at h
  split at h
  · split at h
    · exact hs.iterate h
    · cases h
  · split at h
    · rename_i b rest _ _ u hu
      have hin : Inv { s.atBoundary with inbox := rest } := { hs.atBoundary with }
      have hb := hin.applyEvents hu
      split at h
      · exact hb.iterate h
      · cases h
        exact hb
    all_goals cases h

/-! ### Read-only registers (R84, R651) -/

/-- A delivered trap writes `ustatus`, `ucause`, `uepc` and `utval` and no other CSR (R630, R631). -/
theorem State.deliverSync_csr (s : State) (r : SyncRecord) : ∃ u, (s.deliverSync r).csr =
    { s.csr with ustatus := u, ucause := excCode r.exc, uepc := r.savedPc, utval := excTval r.exc } := by
  unfold State.deliverSync
  split
  · exact ⟨_, by simp only [State.trapEntry, State.writePc_csr, State.stackUie_csr, State.writeTrapRecord_csr]; rfl⟩
  · exact ⟨s.csr.ustatus, by simp [State.unhandledTrap, State.writeTrapRecord_csr]⟩

theorem State.trapped_csr (s : State) (e : Exc) : ∃ u, (s.trapped e).csr =
    { s.csr with ustatus := u, ucause := excCode e, uepc := s.iter.cur, utval := excTval e } := by
  obtain ⟨u, hu⟩ := State.deliverSync_csr
    ({ s with iter := { s.iter with raised := true } }.writePc (s.iter.cur + 4)) ⟨e, s.iter.cur⟩
  exact ⟨u, by rw [State.trapped, hu, State.writePc_csr]⟩

/-- Taking an exception changes no read-only register. -/
theorem State.trapped_readOnly (s : State) (e : Exc) {c : Csr} (hc : c.isReadOnly = true) :
    (s.trapped e).csr.get c = s.csr.get c := by
  obtain ⟨u, hu⟩ := s.trapped_csr e
  rw [hu]
  cases c
  case cycle | time | instret | cycleh | timeh | instreth => rfl
  all_goals exact absurd hc (by decide)

/-- No action of a behaviour changes a read-only register (R84). -/
theorem action_readOnly {s t : State} (h : Action s t) {c : Csr} (hc : c.isReadOnly = true) :
    t.csr.get c = s.csr.get c := by
  cases h with
  | csr d v => rw [State.csrWrite_csr, csrWritten_get_of_readOnly s.csr d hc]
  | _ => simp

/-- Settles O13: no action of a behaviour reaches a read-only register, and no end of one does. -/
theorem readOnlyCsrsKept : Obligations.ReadOnlyCsrsKept := fun i s t h c hc =>
  exec_keeps (P := fun u => u.csr.get c = s.csr.get c) (fun ha hp => (action_readOnly ha hc).trans hp)
    (fun u hp => by rw [State.advance_csr, hp]) (fun u e hp => (u.trapped_readOnly e hc).trans hp)
    (fun u code hp => hp) rfl h

/-! ### Rounding modes and accrued flags (R460, R461) -/

/-- The bits a rounding-mode field of 7 takes from `fcsr` (R92). -/
theorem frm_bits (v : Word) : ((v &&& 0xE0) >>> 5).setWidth 3 = (v >>> 5).setWidth 3 := by
  refine BitVec.eq_of_getLsbD_eq fun i hi => ?_
  have hm : ∀ i < 3, (0xE0 : Word).getLsbD (5 + i) = true := by decide
  simp only [BitVec.getLsbD_setWidth, BitVec.getLsbD_ushiftRight, BitVec.getLsbD_and, hm i hi, Bool.and_true]

/-- The outcome is the end of a behaviour that at most ORs flags into `fcsr`. -/
def OrsFlags (s : State) (res : Result) : Prop :=
  ∃ b : Behaviour, ∃ fl : Fflags, res = finish b ∧ b.final.csr.fcsr = s.csr.fcsr ||| fl.setWidth 32

theorem OrsFlags.of_csr_eq {s : State} {b : Behaviour} (h : b.final.csr.fcsr = s.csr.fcsr) : OrsFlags s (finish b) :=
  ⟨b, 0, rfl, by rw [h]; simp⟩

theorem OrsFlags.retireX (s : State) (rd : Reg) (res : Word × Fflags) :
    OrsFlags s (finish (.done (s.startIter.retireX rd res))) :=
  ⟨_, res.2, rfl, by simp [Behaviour.final, State.retireX, State.accrue_csr]⟩

theorem OrsFlags.retireD (s : State) (rd : Reg) (res : DWord × Fflags) :
    OrsFlags s (finish (.done (s.startIter.retireD rd res))) :=
  ⟨_, res.2, rfl, by simp [Behaviour.final, State.retireD, State.accrue_csr]⟩

theorem OrsFlags.retireS (s : State) (rd : Reg) (res : Word × Fflags) :
    OrsFlags s (finish (.done (s.startIter.retireS rd res))) := .retireD s rd (boxSingle res.1, res.2)

theorem OrsFlags.withRm {rm : BitVec 3} {s : State} {k : Rm → State} (h : ∀ r, OrsFlags s (finish (.done (k r)))) :
    OrsFlags s (finish (withRm rm s.startIter k)) := by
  unfold Machine.withRm
  split
  · exact .of_csr_eq rfl
  · exact h _

theorem OrsFlags.writesX (s : State) (rd : Reg) (v : Word) : OrsFlags s (writesX s rd v) :=
  .of_csr_eq (by simp [Behaviour.final])

theorem OrsFlags.writeF (s : State) (rd : Reg) (v : DWord) : OrsFlags s (finish (.done (s.startIter.writeF rd v))) :=
  .of_csr_eq (by simp [Behaviour.final])

theorem OrsFlags.jumpAndLink (s : State) (rd : Reg) (target : Word) : OrsFlags s (jumpAndLink s rd target) :=
  .of_csr_eq (by simp [Behaviour.final])

theorem OrsFlags.branchIf (taken : Bool) (s : State) (imm : BitVec 13) : OrsFlags s (branchIf taken s imm) :=
  .of_csr_eq (by cases taken <;> simp [Behaviour.final])

theorem OrsFlags.loadX (w : Width) (ext : Word → Word) (rd rs1 : Reg) (imm : BitVec 12) (s : State) :
    OrsFlags s (loadX w ext rd rs1 imm s) := by
  unfold Machine.loadX
  rcases memRead_cases s.startIter (s.effAddr rs1 imm) w with ⟨e, h⟩ | h <;> rw [h] <;>
    exact .of_csr_eq (by simp [Behaviour.final])

theorem OrsFlags.flw (rd rs1 : Reg) (imm : BitVec 12) (s : State) : OrsFlags s (execFlw rd rs1 imm s) := by
  unfold execFlw
  rcases memRead_cases s.startIter (s.effAddr rs1 imm) .word with ⟨e, h⟩ | h <;> rw [h] <;>
    exact .of_csr_eq (by simp [Behaviour.final])

theorem OrsFlags.fld (rd rs1 : Reg) (imm : BitVec 12) (s : State) : OrsFlags s (execFld rd rs1 imm s) := by
  unfold execFld State.read64
  cases s.startIter.accessFault64 .read (s.effAddr rs1 imm) <;> exact .of_csr_eq (by simp [Behaviour.final])

theorem OrsFlags.storeAt (w : Width) (rs1 : Reg) (imm : BitVec 12) (v : Word) (s : State) :
    OrsFlags s (storeAt w rs1 imm v s) := by
  unfold Machine.storeAt
  rcases memWrite_cases s.startIter (s.effAddr rs1 imm) w v with ⟨e, h⟩ | ⟨h, -, -⟩ <;> rw [h] <;>
    exact .of_csr_eq (by simp [Behaviour.final])

theorem OrsFlags.fsd (rs1 rs2 : Reg) (imm : BitVec 12) (s : State) : OrsFlags s (execFsd rs1 rs2 imm s) := by
  unfold execFsd State.write64
  cases s.startIter.accessFault64 .write (s.effAddr rs1 imm) <;> exact .of_csr_eq (by simp [Behaviour.final])

/-- `uret` writes `ustatus` only. -/
theorem OrsFlags.uret (s : State) : OrsFlags s (execUret s) :=
  .of_csr_eq (by simp [Behaviour.final, State.returnFromTrap, State.csrWrite_csr, csrWritten])

theorem allocate_csr {s t : State} {n r : Word} (h : s.allocate n = some (r, t)) : t.csr = s.csr := by
  unfold State.allocate at h
  dsimp only at h
  split_ifs at h <;> cases h <;> simp

theorem sbrk_csr (s : State) : (sbrk s).final.csr = s.csr := by
  unfold sbrk
  split
  · rename_i r t ha
    simp [Behaviour.final, allocate_csr ha]
  · rfl

theorem OrsFlags.ecall {s : State} (h : serviceOf s.cfg.syscalls (s.readX 17) ≠ some .hosted) :
    OrsFlags s (execEcall s) := by
  refine .of_csr_eq ?_
  have hx : s.startIter.readX 17 = s.readX 17 := rfl
  rw [environmentCall, State.startIter_cfg, hx]
  cases hsv : serviceOf s.cfg.syscalls (s.readX 17) with
  | none => rfl
  | some sv =>
    cases sv with
    | sbrk => exact congrArg Csrs.fcsr (sbrk_csr s.startIter)
    | exitZero | exitA0 => rfl
    | hosted => exact absurd hsv h

/-- Every instruction at most ORs flags into `fcsr`, but for the CSR instructions and a host-supplied handler (R461). -/
theorem exec_orsFlags (i : Instr) (s : State) : OrsFlags s (exec i s) ∨
    (∃ rd n r, i = .csrrw rd n r ∨ i = .csrrs rd n r ∨ i = .csrrc rd n r ∨
      i = .csrrwi rd n r ∨ i = .csrrsi rd n r ∨ i = .csrrci rd n r) ∨
    (i = .ecall ∧ serviceOf s.cfg.syscalls (s.readX 17) = some .hosted) := by
  cases i
  case csrrw rd n r | csrrs rd n r | csrrc rd n r | csrrwi rd n r | csrrsi rd n r | csrrci rd n r =>
    exact .inr (.inl ⟨rd, n, r, by simp⟩)
  case ecall =>
    by_cases h : serviceOf s.cfg.syscalls (s.readX 17) = some .hosted
    · exact .inr (.inr ⟨rfl, h⟩)
    · exact .inl (.ecall h)
  all_goals left
  case jal | jalr => exact .jumpAndLink s _ _
  case fence | fenceI | wfi => exact .of_csr_eq (b := .done s.startIter) rfl
  case ebreak => exact .of_csr_eq (b := .done _) rfl
  case uret => exact .uret s
  case flw => exact .flw _ _ _ s
  case fld => exact .fld _ _ _ s
  case fsd => exact .fsd _ _ _ s
  case lb | lh | lw | lbu | lhu => exact .loadX _ _ _ _ _ s
  case sb | sh | sw | fsw => exact .storeAt _ _ _ _ s
  case beq | bne | blt | bge | bltu | bgeu => exact .branchIf _ s _
  case fmvWX | fsgnjS | fsgnjnS | fsgnjxS | fsgnjD | fsgnjnD | fsgnjxD => exact .writeF s _ _
  case fminS | fmaxS => exact .retireS s _ _
  case fminD | fmaxD => exact .retireD s _ _
  case feqS | fltS | fleS | feqD | fltD | fleD => exact .retireX s _ _
  case fmaddS | fmsubS | fnmsubS | fnmaddS | faddS | fsubS | fmulS | fdivS | fsqrtS | fcvtSW | fcvtSWu | fcvtSD =>
    exact .withRm fun _ => .retireS s _ _
  case fmaddD | fmsubD | fnmsubD | fnmaddD | faddD | fsubD | fmulD | fdivD | fsqrtD | fcvtDW | fcvtDWu | fcvtDS =>
    exact .withRm fun _ => .retireD s _ _
  case fcvtWS | fcvtWuS | fcvtWD | fcvtWuD => exact .withRm fun _ => .retireX s _ _
  all_goals exact .writesX s _ _

/-- An end of a behaviour leaves `fcsr` as it is. -/
theorem finish_fcsr {b : Behaviour} {t : State} (h : finish b = .next t) : t.csr.fcsr = b.final.csr.fcsr := by
  rcases finish_next h with rfl | ⟨e, rfl⟩ | ⟨code, rfl⟩
  · rw [State.advance_csr]
  · obtain ⟨u, hu⟩ := b.final.trapped_csr e
    rw [hu]
  · rfl

/-- ORing in flags touches the low five bits only. -/
theorem or_flags_eq (a : Word) (fl : Fflags) :
    a ||| fl.setWidth 32 = a ||| ((a ||| fl.setWidth 32) &&& 0x1F) := by
  refine BitVec.eq_of_getLsbD_eq fun i hi => ?_
  have hm : ∀ i < 32, (0x1F : Word).getLsbD i = decide (i < 5) := by decide
  simp only [BitVec.getLsbD_or, BitVec.getLsbD_and, BitVec.getLsbD_setWidth, hm i hi]
  by_cases h5 : i < 5
  · cases a.getLsbD i <;> simp [h5]
  · simp [h5, BitVec.getLsbD_of_ge fl i (by omega)]

/-- Settles O33: `frm` is bits 7 to 5 of `fcsr`, and each instruction at most ORs flags into `fcsr`. -/
theorem roundingAndFlags : Obligations.RoundingAndFlags := by
  refine ⟨fun s rm => ?_, fun i s t h => ?_⟩
  · have hfrm : (s.csrRead .frm).setWidth 3 = (s.csr.fcsr >>> 5).setWidth 3 := by
      rw [State.csrRead_eq]
      exact frm_bits s.csr.fcsr
    unfold State.resolveRm
    rw [hfrm]
    dsimp only
    split <;> rfl
  · refine (exec_orsFlags i s).imp_left ?_
    rintro ⟨b, fl, hb, hfl⟩
    rw [finish_fcsr (hb.symm.trans h), hfl]
    exact or_flags_eq _ fl

end Sys2Proof.Machine

/-! SUPPORT and PROOFS. The memory family (20_memory.md): raw and checked access, the permissions of the reference map,
the heap, what no instruction changes, and the outcomes of a fetch. -/

namespace Sys2Proof.Machine

/-! ### Raw access (R156, R157, R161, R162, R170) -/

/-- Settles O14: the laws of a whole access, of the statements it touches and of the canonical form. -/
theorem rawAccess : Obligations.RawAccess := fun s a v w hwf =>
  have hkeys : keysRise s.mem = true := Memory.wf_keysRise hwf
  have ⟨hpresent, hothers⟩ := s.rawWrite_text a v w
  ⟨fun b => State.byteAt_rawWrite hkeys a v b w, s.byteOf_rawRead a w, State.rawRead_rawWrite hkeys a v w,
    hpresent, hothers, State.rawWrite_wf hwf a w v⟩

/-! ### The reference map (R152, R154) -/

/-- The access class of every address of the reference map (R152). -/
theorem classAt_reference (a : Word) : classAt .reference a =
    if a.toNat < 0x00400000 then .noAccess
    else if a.toNat < 0x10000000 then .executable
    else if a.toNat < 0x80000000 then .readWrite
    else if a.toNat < 0x90000000 then .executable
    else if a.toNat < 0xFFFF0000 then .readWrite
    else .mmio := by
  have hspace := a.isLt
  unfold classAt segmentOf MemMap.reference
  split_ifs <;> simp (disch := omega) [List.find?_cons, Nat.not_lt.mp, *]

/-- Settles O15: the class of each range, then the table of R154. -/
theorem permissionTable : Obligations.PermissionTable := by
  intro c a hmap
  unfold permits
  rw [hmap]
  refine ⟨fun hreserved k => ?_, fun htext => ?_, fun hdata => ?_⟩
  · rw [classAt_reference, if_pos hreserved]
    rfl
  · have hclass : classAt .reference a = .executable := by
      rw [classAt_reference]
      rcases htext with ⟨hlo, hhi⟩ | ⟨hlo, hhi⟩ <;> simp (disch := omega) only [if_pos, if_neg]
    rw [hclass]
    exact ⟨rfl, rfl, rfl⟩
  · have hclass : classAt .reference a = .readWrite ∨ classAt .reference a = .mmio := by
      rw [classAt_reference]
      rcases hdata with ⟨hlo, hhi⟩ | hlo
      · simp (disch := omega) only [if_pos, if_neg, true_or]
      · by_cases hmmio : a.toNat < 0xFFFF0000 <;> simp (disch := omega) [if_neg, hmmio]
    rcases hclass with hclass | hclass <;> rw [hclass] <;> exact ⟨rfl, rfl, rfl⟩

/-! ### Checked access (R165-R168, R176) -/

theorem aligned_iff (a : Word) (w : Width) : aligned a w = true ↔ a.toNat % bytesOf w = 0 := beq_iff_eq

section

variable (s : State) {k : AccessKind} {a : Word} {w : Width}

theorem State.accessFault_of_misaligned (h : a.toNat % bytesOf w ≠ 0) :
    s.accessFault k a w = some (.addressFault k .misaligned a) := by
  simp [State.accessFault, aligned, h]

theorem State.accessFault_of_denied (h : a.toNat % bytesOf w = 0) (hp : permits s.cfg a k = false) :
    s.accessFault k a w = some (.addressFault k .access a) := by
  simp [State.accessFault, aligned, h, hp]

theorem State.accessFault_of_permitted (h : a.toNat % bytesOf w = 0) (hp : permits s.cfg a k = true) :
    s.accessFault k a w = none := by
  simp [State.accessFault, aligned, h, hp]

theorem State.memRead_of_fault {e : Exc} (h : s.accessFault .read a w = some e) : s.memRead a w = .error e := by
  simp [State.memRead, h]

theorem State.memRead_of_no_fault (h : s.accessFault .read a w = none) :
    s.memRead a w = .ok (s.loadedValue a w, s.afterRead a) := by
  simp [State.memRead, h]

theorem State.memWrite_of_fault {e : Exc} {v : Word} (h : s.accessFault .write a w = some e) :
    s.memWrite a w v = .error e := by
  simp [State.memWrite, h]

theorem State.memWrite_of_no_fault {v : Word} (h : s.accessFault .write a w = none) :
    s.memWrite a w v = .ok (s.rawWrite a w v) := by
  simp [State.memWrite, h]

end

/-- Settles O16: the fault of an access decides what the access answers. -/
theorem checkedAccess : Obligations.CheckedAccess := by
  intro s a w v
  refine ⟨fun h => ⟨s.memRead_of_fault (s.accessFault_of_misaligned h),
      s.memWrite_of_fault (s.accessFault_of_misaligned h)⟩,
    fun h hp => s.memRead_of_fault (s.accessFault_of_denied h hp),
    fun h hp => s.memWrite_of_fault (s.accessFault_of_denied h hp), fun h hp hstored => ?_, fun h hp hdraw => ?_,
    fun h hp => s.memWrite_of_no_fault (s.accessFault_of_permitted h hp)⟩
  · rw [s.memRead_of_no_fault (s.accessFault_of_permitted h hp)]
    simp [State.loadedValue, State.afterRead, hstored]
  · rw [s.memRead_of_no_fault (s.accessFault_of_permitted h hp)]
    simp [State.loadedValue, State.afterRead, hdraw]

/-! ### The heap (R180, R181) -/

theorem roundUp4_mod (n : Nat) : roundUp4 n % 4 = 0 := Nat.mul_mod_left _ 4

theorem le_roundUp4 (n : Nat) : n ≤ roundUp4 n := by
  unfold roundUp4
  omega

theorem roundUp4_lt (n : Nat) : roundUp4 n < n + 4 := by
  unfold roundUp4
  omega

section

variable (s : State) {n : Word}

theorem State.allocate_of_negative (h : n.toInt < 0) : s.allocate n = none := if_pos h

theorem State.allocate_of_above_limit (h : s.cfg.heapLimit < roundUp4 (s.heapTop + n.toNat)) :
    s.allocate n = none := by
  simp [State.allocate, h]

/-- A request that fits moves the top, and nothing else but the BackStepper's ring. -/
theorem State.allocate_of_fits (hn : 0 ≤ n.toInt) (h : roundUp4 (s.heapTop + n.toNat) ≤ s.cfg.heapLimit) :
    ∃ ring, s.allocate n =
      some (BitVec.ofNat 32 s.heapTop, { s with heapTop := roundUp4 (s.heapTop + n.toNat), ring := ring }) := by
  unfold State.allocate
  dsimp only
  rw [if_neg (not_lt.mpr hn), if_neg (not_lt.mpr h)]
  split
  · rename_i hsame
    exact ⟨s.ring, by rw [hsame]⟩
  · exact ⟨_, by rw [State.record_eq]⟩

end

/-- Settles O17: the new top is `roundUp4` of the exact one. -/
theorem heapAllocate : Obligations.HeapAllocate := by
  intro s n least
  refine ⟨s.allocate_of_negative, fun hn => ?_⟩
  have hleast : least = (s.heapTop + n.toNat : Nat) := by
    have hmsb : n.msb = false := by simpa [BitVec.msb_eq_toInt] using hn
    simp [least, BitVec.toInt_eq_toNat_of_msb hmsb]
  refine ⟨roundUp4 (s.heapTop + n.toNat), roundUp4_mod _, ?_, ?_, s.allocate_of_above_limit, fun hfits => ?_⟩
  · rw [hleast]
    exact_mod_cast le_roundUp4 _
  · rw [hleast]
    exact_mod_cast roundUp4_lt _
  · obtain ⟨ring, h⟩ := s.allocate_of_fits hn hfits
    exact ⟨_, h, rfl, rfl, rfl, rfl, rfl, rfl, rfl⟩

/-! ### What a checked store can reach (R153, R154, R160) -/

/-- The bounds of the segments that tile the space are multiples of 4 (R152). -/
theorem tilesFrom_bounds {lo : Nat} {gs : List Segment} (h : tilesFrom lo gs = true) (hlo : lo % 4 = 0) :
    ∀ g ∈ gs, g.lo % 4 = 0 ∧ g.hi % 4 = 0 := by
  induction gs generalizing lo with
  | nil => simp
  | cons g rest ih =>
    simp only [tilesFrom, Bool.and_eq_true, beq_iff_eq] at h
    obtain ⟨⟨⟨hg, -⟩, hhi⟩, hrest⟩ := h
    exact List.forall_mem_cons.mpr ⟨⟨hg ▸ hlo, hhi⟩, ih hrest hhi⟩

/-- The addresses of one word lie in one segment (R152, R153). -/
theorem segmentOf_of_same_word {mm : MemMap} (hmm : mm.wf = true) {a b : Word} (h : a.toNat / 4 = b.toNat / 4) :
    segmentOf mm a = segmentOf mm b := by
  refine List.find?_congr fun g hg => ?_
  obtain ⟨hlo, hhi⟩ := tilesFrom_bounds hmm rfl g hg
  have h1 : g.lo ≤ a.toNat ↔ g.lo ≤ b.toNat := by omega
  have h2 : a.toNat < g.hi ↔ b.toNat < g.hi := by omega
  simp only [h1, h2]

/-- The bytes of an aligned access lie in one word (R165). -/
theorem same_word_of_within {a b : Word} {w : Width} (ha : aligned a w = true) (hb : Within a (bytesOf w) b) :
    b.toNat / 4 = a.toNat / 4 := by
  have hsum : b.toNat = (a.toNat + (b - a).toNat) % 2 ^ 32 := by
    rw [← BitVec.toNat_add, BitVec.add_comm, BitVec.sub_add_cancel]
  have hspace := a.isLt
  rw [aligned_iff] at ha
  unfold Within at hb
  cases w <;> simp only [bytesOf] at ha hb <;> omega

/-- The bytes of an aligned access have the access class of its address. -/
theorem classAt_of_within {mm : MemMap} (hmm : mm.wf = true) {a b : Word} {w : Width} (ha : aligned a w = true)
    (hb : Within a (bytesOf w) b) : classAt mm b = classAt mm a := by
  unfold classAt
  rw [segmentOf_of_same_word hmm (same_word_of_within ha hb)]

/-- A store none of whose bytes lies in an executable segment leaves TEXT as it is. -/
theorem State.setBytes_text_of_not_executable (s : State) (a v : Word) {n : Nat} (hn : n ≤ 4)
    (h : ∀ b, Within a n b → executableAt s.cfg.memMap b = false) : (s.setBytes a v n).text = s.text := by
  induction n with
  | zero => rfl
  | succ n ih =>
    have hlast : Within a (n + 1) (a + BitVec.ofNat 32 n) := by
      rw [Within, BitVec.add_comm, BitVec.add_sub_cancel, BitVec.toNat_ofNat]
      omega
    have hsetByte : (s.setBytes a v (n + 1)).text = (s.setBytes a v n).text := by
      simp [State.setBytes, State.setByte, h _ hlast]
    rw [hsetByte]
    exact ih (by omega) fun b hb => h b (Nat.lt_succ_of_lt hb)

theorem State.rawWrite_text_of_not_executable (s : State) (a v : Word) {w : Width}
    (h : ∀ b, Within a (bytesOf w) b → executableAt s.cfg.memMap b = false) : (s.rawWrite a w v).text = s.text := by
  unfold State.rawWrite
  split
  · rw [State.emit_text, State.setBytes_text_of_not_executable _ a v (bytesOf_le w) (by simpa using h),
      State.record_text]
  · rfl

/-- Without self-modifying code, no address of an executable segment permits a data write (R154). -/
theorem not_executableAt_of_permits_write {c : Config} {a : Word} (hsmc : c.smcEnabled = false)
    (hp : permits c a .write = true) : executableAt c.memMap a = false := by
  unfold permits at hp
  unfold executableAt
  cases hc : classAt c.memMap a with
  | executable => simp [hc, hsmc, classPermits] at hp
  | noAccess | readWrite | mmio => rfl

/-- From `s` to `t` the configuration is as before, BYTES are canonical, every byte that no data write may reach is as
before, and without self-modifying code TEXT is as before. -/
structure KeepsProtected (s t : State) : Prop where
  cfg : t.cfg = s.cfg
  canonical : Memory.wf t.mem = true
  bytes : ∀ a, permits s.cfg a .write = false → t.byteAt a = s.byteAt a
  text : s.cfg.smcEnabled = false → t.text = s.text

theorem KeepsProtected.refl {s : State} (h : Memory.wf s.mem = true) : KeepsProtected s s :=
  ⟨rfl, h, fun _ _ => rfl, fun _ => rfl⟩

/-- A change of anything but the configuration, BYTES and TEXT. -/
theorem KeepsProtected.of_eq {s t u : State} (h : KeepsProtected s t) (hc : u.cfg = t.cfg) (hm : u.mem = t.mem)
    (ht : u.text = t.text) : KeepsProtected s u where
  cfg := hc.trans h.cfg
  canonical := hm ▸ h.canonical
  bytes a ha := (State.byteAt_of_eq hc hm ht a).trans (h.bytes a ha)
  text hsmc := ht.trans (h.text hsmc)

/-- A checked write: each of its bytes has the permission of its address. -/
theorem KeepsProtected.rawWrite {s t : State} (h : KeepsProtected s t) (hmm : s.cfg.memMap.wf = true) {a v : Word}
    {w : Width} (ha : aligned a w = true) (hp : permits t.cfg a .write = true) :
    KeepsProtected s (t.rawWrite a w v) where
  cfg := (t.rawWrite_cfg a w v).trans h.cfg
  canonical := State.rawWrite_wf h.canonical a w v
  bytes b hb := by
    have houtside : ¬ Within a (bytesOf w) b := fun hin => by
      rw [h.cfg, permits, ← classAt_of_within hmm ha hin] at hp
      exact absurd (hp.symm.trans hb) (by decide)
    rw [State.byteAt_rawWrite (Memory.wf_keysRise h.canonical)]
    exact (if_neg houtside).trans (h.bytes b hb)
  text hsmc := by
    rw [t.rawWrite_text_of_not_executable a v fun b hb => ?_, h.text hsmc]
    rw [h.cfg] at hp ⊢
    rw [executableAt, classAt_of_within hmm ha hb]
    exact not_executableAt_of_permits_write hsmc hp

theorem KeepsProtected.action {s t u : State} (h : KeepsProtected s t) (hmm : s.cfg.memMap.wf = true)
    (ha : Action t u) : KeepsProtected s u := by
  cases ha with
  | store a w v hal hp => exact h.rawWrite hmm hal hp
  | _ => exact h.of_eq (by simp) (by simp) (by simp)

/-- Settles O18: stores are checked, and neither another action nor an end of a behaviour reaches memory. -/
theorem protectedMemoryKept : Obligations.ProtectedMemoryKept := by
  intro i s t hwf hmm h
  have hstart : KeepsProtected s s.startIter := (KeepsProtected.refl hwf).of_eq rfl rfl rfl
  have hkept : KeepsProtected s t := exec_keeps (P := KeepsProtected s) (fun ha hp => hp.action hmm ha)
    (fun u hp => hp.of_eq (by simp) (by simp) (by simp))
    (fun u e hp => hp.of_eq (by simp [State.trapped]) (by simp [State.trapped]) (by simp [State.trapped]))
    (fun u code hp => hp.of_eq rfl rfl rfl) hstart h
  exact ⟨hkept.bytes, hkept.text⟩

/-! ### Taking an exception (R611, R630, R631) -/

/-- There is a handler, as the spec's predicate says it (R629). -/
theorem State.handled_iff (s : State) : (s.handlerOk s.trapBase && s.uie) = true ↔ Handled s := by
  rw [Bool.and_eq_true, handlerOk_iff]
  rfl

/-- UIE, where it is 1, moved to the place of UPIE. -/
theorem uie_shifted {u : Word} (h : u.getLsbD 0 = true) : (u &&& 1) <<< 4 = 0x10 := by
  have hone : u &&& 1 = 1 := by
    refine BitVec.eq_of_getLsbD_eq fun i hi => ?_
    cases i with
    | zero => simp [h]
    | succ i => simp
  rw [hone]
  rfl

theorem Handled.deliverSync {s : State} (h : Handled s) (r : SyncRecord) : s.deliverSync r = s.trapEntry r := by
  rw [State.deliverSync, if_pos (s.handled_iff.mpr h)]

theorem State.deliverSync_of_not_handled {s : State} (h : ¬ Handled s) (r : SyncRecord) :
    s.deliverSync r = s.unhandledTrap r := by
  rw [State.deliverSync, if_neg (mt s.handled_iff.mp h)]

/-- What decides whether a trap is handled is the CSRs, the memory map and TEXT. -/
theorem Handled.congr {s t : State} (hcsr : t.csr = s.csr) (hcfg : t.cfg = s.cfg) (htext : t.text = s.text) :
    Handled t ↔ Handled s := by
  unfold Handled HandlerAt
  rw [hcsr, hcfg, htext]

/-- The CSRs a handled trap leaves (R630). -/
theorem State.trapEntry_csr (s : State) (r : SyncRecord) : (s.trapEntry r).csr =
    { s.csr with ucause := excCode r.exc, uepc := r.savedPc, utval := excTval r.exc,
                 ustatus := (s.csr.ustatus &&& ~~~(0x11 : Word)) ||| ((s.csr.ustatus &&& 1) <<< 4) } := by
  simp [State.trapEntry, State.stackUie_csr, State.writeTrapRecord_csr]

/-- A handled trap goes to BASE (R630). -/
theorem State.trapEntry_pc (s : State) (r : SyncRecord) : (s.trapEntry r).pc = s.csr.utvec &&& 0xFFFFFFFC := by
  simp [State.trapEntry, State.trapBase, State.stackUie_csr, State.writeTrapRecord_csr]

/-- The CSRs an unhandled trap leaves (R631). -/
theorem State.unhandledTrap_csr (s : State) (r : SyncRecord) : (s.unhandledTrap r).csr =
    { s.csr with ucause := excCode r.exc, uepc := r.savedPc, utval := excTval r.exc } :=
  s.writeTrapRecord_csr _ _ _

/-- What taking an exception leaves (R630, R631). -/
theorem State.trapped_spec (s : State) (e : Exc) : Trapped s (s.trapped e) e s.iter.cur := by
  set r : State := { s with iter := { s.iter with raised := true } }.writePc (s.iter.cur + 4) with hr
  have hd : s.trapped e = r.deliverSync ⟨e, s.iter.cur⟩ := rfl
  have hcsr : r.csr = s.csr := by simp [hr]
  have hhandled : Handled r ↔ Handled s := Handled.congr hcsr (by simp [hr]) (by simp [hr])
  constructor
  case handled =>
    intro h
    rw [hd, (hhandled.mpr h).deliverSync]
    refine ⟨?_, by simp [hr], ?_⟩
    · rw [State.trapEntry_pc, hcsr]
    · rw [State.trapEntry_csr, hcsr, uie_shifted h.2]
  case unhandled =>
    intro h
    rw [hd, State.deliverSync_of_not_handled (mt hhandled.mp h)]
    refine ⟨by simp [hr], rfl, ?_⟩
    rw [State.unhandledTrap_csr, hcsr]
  case gpr => exact fun q => State.readX_congr (by simp [hd, hr]) q
  case fpr => exact fun q => State.readF_congr (by simp [hd, hr]) q
  case memory => exact .of_eq (by simp [hd, hr]) (by simp [hd, hr]) (by simp [hd, hr])
  all_goals simp [hd, hr]

/-- With no synchronous record pending, the exception is taken (R611). -/
theorem takeException_of_syncIdle {s : State} (h : SyncIdle s) (e : Exc) :
    takeException e s = .next (s.trapped e) := takeException_eq h e

/-! ### The outcomes of a fetch (R172, R245) -/

section

variable (s : State) {a : Word}

theorem State.fetch_of_misaligned (h : a.toNat % 4 ≠ 0) :
    s.fetch a = .raised (.addressFault .fetch .misaligned a) := by
  simp [State.fetch, aligned, bytesOf, h]

theorem State.fetch_of_not_executable (h : a.toNat % 4 = 0) (hx : executableAt s.cfg.memMap a = false) :
    s.fetch a = .raised (.addressFault .fetch .access a) := by
  simp [State.fetch, aligned, bytesOf, h, hx]

theorem State.fetch_of_absent (h : a.toNat % 4 = 0) (hx : executableAt s.cfg.memMap a = true)
    (hnone : storeFind s.text a.toNat = none) : s.fetch a = .cliff := by
  simp [State.fetch, aligned, bytesOf, h, hx, hnone]

end

/-- An iteration that fetches nothing stops at the cliff (R172). -/
theorem iterate_of_cliff {s : State} (h : s.beginStep.fetch s.pc = .cliff) :
    iterate s = .next (s.beginStep.stop .cliff) := by
  have hpc : s.beginStep.pc = s.pc := rfl
  simp [iterate, hpc, h]

/-- An iteration whose fetch faults takes the exception (R172). -/
theorem iterate_of_fetch_raised {s : State} {e : Exc} (h : s.beginStep.fetch s.pc = .raised e) :
    iterate s = concludeResult (takeException e s.beginStep) := by
  have hpc : s.beginStep.pc = s.pc := rfl
  simp [iterate, hpc, h]

/-- A word that no descriptor accepts is an illegal instruction (R245). -/
theorem execWord_of_decodeWith_none {s : State} {w : Word} (h : decodeWith s.cfg.descriptors w = none) :
    execWord w s = takeException (.illegalInstruction w) s := by
  simp [execWord, h]

/-- An iteration that comes to an exception leaves its instruction's address as the saved pc, and concludes (R620). -/
theorem step_trapped {s : State} (hrun : Running s) (hidle : SyncIdle s) {e : Exc}
    (h : iterate s = concludeResult (takeException e s.beginStep)) :
    ∃ m, Trapped s.beginStep m e s.pc ∧ step s = .next m.conclude := by
  have hidle0 : SyncIdle s.beginStep := hidle
  refine ⟨s.beginStep.trapped e, s.beginStep.trapped_spec e, ?_⟩
  rw [step_of_running hrun, h, takeException_of_syncIdle hidle0]
  rfl

/-- Settles O54: each outcome of the fetch, and of decoding, gives the step. -/
theorem stepFetchOutcomes : Obligations.StepFetchOutcomes := by
  intro s hrun hidle
  refine ⟨fun h => ?misaligned, fun h hx => ?denied, fun h hx => ⟨fun hnone => ?cliff, fun w hw hd => ?illegal⟩⟩
  case misaligned =>
    exact step_trapped hrun hidle (iterate_of_fetch_raised (s.beginStep.fetch_of_misaligned h))
  case denied =>
    exact step_trapped hrun hidle (iterate_of_fetch_raised (s.beginStep.fetch_of_not_executable h hx))
  case cliff =>
    refine ⟨s.beginStep.stop .cliff, ?_, rfl, rfl, rfl, rfl, rfl, rfl, rfl, rfl, rfl, rfl⟩
    rw [step_of_running hrun, iterate_of_cliff (s.beginStep.fetch_of_absent h hx hnone)]
  case illegal =>
    refine step_trapped hrun hidle ?_
    rw [iterate_of_fetch (State.fetch_eq_word h hx hw), execWord_of_decodeWith_none (s := s.beginStep) hd]

end Sys2Proof.Machine

/-! SUPPORT and PROOFS. The encoding family (30_encoding.md): the fields of a word, the round trips of the encoder and
the decoder, the descriptor tables, and the words that decode to nothing. -/

namespace Sys2Proof

/-! ### Placed fields (R246) -/

/-- A placed field is read back from its place. -/
@[simp] theorem extractLsb'_place_same (v : BitVec n) (k : Nat) (h : k + n ≤ 32) :
    (place v k).extractLsb' k n = v := by
  ext i hi
  have hk : k + i < 32 := by omega
  simp [place, BitVec.getElem_setWidth, hi, hk]

/-- A placed field leaves the bits beside it zero. -/
@[simp] theorem extractLsb'_place_disjoint (v : BitVec n) (k k' n' : Nat) (h : k + n ≤ k' ∨ k' + n' ≤ k) :
    (place v k).extractLsb' k' n' = 0#n' := by
  ext i hi
  simp only [place, BitVec.getElem_extractLsb', BitVec.getLsbD_shiftLeft, BitVec.getLsbD_setWidth]
  rcases h with h | h
  · simp [BitVec.getLsbD_of_ge v (k' + i - k) (by omega)]
  · simp [show k' + i < k by omega]

/-- A field placed where it was read is the word with every other bit clear. -/
theorem place_extractLsb' (w : Word) (k n : Nat) : place (w.extractLsb' k n) k = w &&& fieldMask n k := by
  apply BitVec.eq_of_getLsbD_eq
  intro i hi
  simp only [place, fieldMask, BitVec.getLsbD_and, BitVec.getLsbD_shiftLeft, BitVec.getLsbD_setWidth,
    BitVec.getLsbD_extractLsb', BitVec.getLsbD_ofNat, Nat.testBit_two_pow_sub_one]
  by_cases hk : i < k
  · simp [hk]
  · simp [hk, hi, Nat.add_sub_cancel' (not_lt.mp hk), show i - k < 32 by omega, Bool.and_comm]

/-! ### Immediates and the fields they are made of (R252-R255) -/

theorem extractLsb'_zero_of_evenOffset {imm : BitVec n} (h : evenOffset imm = true) : imm.extractLsb' 0 1 = 0#1 := by
  ext i hi
  obtain rfl : i = 0 := by omega
  simpa [evenOffset] using h

/-- An S-immediate is the fields the word holds of it (R252). -/
theorem append_fields_immS (imm : BitVec 12) : imm.extractLsb' 5 7 ++ imm.extractLsb' 0 5 = imm :=
  BitVec.extractLsb'_append_extractLsb'

/-- An even B-immediate is the fields the word holds of it (R253). -/
theorem append_fields_immB {imm : BitVec 13} (h : evenOffset imm = true) :
    imm.extractLsb' 12 1 ++ imm.extractLsb' 11 1 ++ imm.extractLsb' 5 6 ++ imm.extractLsb' 1 4 ++ 0#1 = imm := by
  rw [← extractLsb'_zero_of_evenOffset h]
  iterate 4 rw [BitVec.extractLsb'_append_extractLsb'_eq_extractLsb' (by rfl)]
  exact BitVec.extractLsb'_eq_self

/-- An even J-immediate is the fields the word holds of it (R255). -/
theorem append_fields_immJ {imm : BitVec 21} (h : evenOffset imm = true) :
    imm.extractLsb' 20 1 ++ imm.extractLsb' 12 8 ++ imm.extractLsb' 11 1 ++ imm.extractLsb' 1 10 ++ 0#1 = imm := by
  rw [← extractLsb'_zero_of_evenOffset h]
  iterate 4 rw [BitVec.extractLsb'_append_extractLsb'_eq_extractLsb' (by rfl)]
  exact BitVec.extractLsb'_eq_self

/-- An upper immediate is the field the word holds of it (R254). -/
theorem append_field_immU {imm : Word} (h : upperOnly imm = true) : imm.extractLsb' 12 20 ++ 0#12 = imm := by
  have hlow : imm.extractLsb' 0 12 = 0#12 := by
    simpa [upperOnly, BitVec.setWidth_eq_extractLsb'] using h
  rw [← hlow]
  exact BitVec.extractLsb'_append_extractLsb'

theorem evenOffset_append_zero (v : BitVec n) : evenOffset (v ++ 0#1) = true := by
  rw [evenOffset, BitVec.getLsbD_append]
  rfl

theorem upperOnly_immU (w : Word) : upperOnly (immU w) = true := by
  rw [upperOnly, immU, BitVec.setWidth_append_eq_right]
  rfl

/-- What a word is read as meets the checks on operands (R253-R255). -/
theorem wellFormed_build (op : Op) (w : Word) : wellFormed (op.build w) = true := by
  cases op with
  | lui | auipc => exact upperOnly_immU w
  | jal | beq | bne | blt | bge | bltu | bgeu => exact evenOffset_append_zero _
  | _ => rfl

/-! ### What the fields of an encoded word read (R246)

Per format, the operands a word reads as, and that the encoder's word keeps its base in the fixed bits and reads as the
operands it was given. -/

def ReadsUnary (rd rs1 : Reg) (w : Word) : Prop := rdOf w = rd ∧ rs1Of w = rs1

def ReadsUnaryRm (rd rs1 : Reg) (rm : BitVec 3) (w : Word) : Prop := ReadsUnary rd rs1 w ∧ rmOf w = rm

def ReadsR (rd rs1 rs2 : Reg) (w : Word) : Prop := ReadsUnary rd rs1 w ∧ rs2Of w = rs2

def ReadsRm (rd rs1 rs2 : Reg) (rm : BitVec 3) (w : Word) : Prop := ReadsR rd rs1 rs2 w ∧ rmOf w = rm

def ReadsR4 (rd rs1 rs2 rs3 : Reg) (rm : BitVec 3) (w : Word) : Prop := ReadsRm rd rs1 rs2 rm w ∧ rs3Of w = rs3

def ReadsI (rd rs1 : Reg) (imm : BitVec 12) (w : Word) : Prop := ReadsUnary rd rs1 w ∧ immI w = imm

def ReadsS (rs1 rs2 : Reg) (imm : BitVec 12) (w : Word) : Prop := rs1Of w = rs1 ∧ rs2Of w = rs2 ∧ immS w = imm

def ReadsB (rs1 rs2 : Reg) (imm : BitVec 13) (w : Word) : Prop := rs1Of w = rs1 ∧ rs2Of w = rs2 ∧ immB w = imm

def ReadsU (rd : Reg) (imm : Word) (w : Word) : Prop := rdOf w = rd ∧ immU w = imm

def ReadsJ (rd : Reg) (imm : BitVec 21) (w : Word) : Prop := rdOf w = rd ∧ immJ w = imm

def ReadsFence (pred succ : BitVec 4) (w : Word) : Prop := predOf w = pred ∧ succOf w = succ

section

open Laws.Placed

variable {b : Word} (rd rs1 rs2 rs3 : Reg) (rm : BitVec 3)

theorem encodeUnary_reads (h : b &&& 0xFFF0707F = b) :
    encodeUnary b rd rs1 &&& 0xFFF0707F = b ∧ ReadsUnary rd rs1 (encodeUnary b rd rs1) := by
  refine ⟨(encodeUnary_and _ _ _ _ (by decide)).trans h, ?_⟩
  rw [← h]
  simp [ReadsUnary, rdOf, rs1Of, encodeUnary, BitVec.extractLsb'_or, BitVec.extractLsb'_and]

theorem encodeUnaryRm_reads (h : b &&& 0xFFF0007F = b) :
    encodeUnaryRm b rd rs1 rm &&& 0xFFF0007F = b ∧ ReadsUnaryRm rd rs1 rm (encodeUnaryRm b rd rs1 rm) := by
  refine ⟨(encodeUnaryRm_and _ _ _ _ _ (by decide) (by decide)).trans h, ?_⟩
  rw [← h]
  simp [ReadsUnaryRm, ReadsUnary, rdOf, rs1Of, rmOf, encodeUnaryRm, encodeUnary, BitVec.extractLsb'_or,
    BitVec.extractLsb'_and]

theorem encodeR_reads (h : b &&& 0xFE00707F = b) :
    encodeR b rd rs1 rs2 &&& 0xFE00707F = b ∧ ReadsR rd rs1 rs2 (encodeR b rd rs1 rs2) := by
  refine ⟨(encodeR_and _ _ _ _ _ (by decide)).trans h, ?_⟩
  rw [← h]
  simp [ReadsR, ReadsUnary, rdOf, rs1Of, rs2Of, encodeR, BitVec.extractLsb'_or, BitVec.extractLsb'_and]

theorem encodeRm_reads (h : b &&& 0xFE00007F = b) :
    encodeRm b rd rs1 rs2 rm &&& 0xFE00007F = b ∧ ReadsRm rd rs1 rs2 rm (encodeRm b rd rs1 rs2 rm) := by
  refine ⟨(encodeRm_and _ _ _ _ _ _ (by decide) (by decide)).trans h, ?_⟩
  rw [← h]
  simp [ReadsRm, ReadsR, ReadsUnary, rdOf, rs1Of, rs2Of, rmOf, encodeRm, encodeR, BitVec.extractLsb'_or,
    BitVec.extractLsb'_and]

theorem encodeR4_reads (h : b &&& 0x0600007F = b) :
    encodeR4 b rd rs1 rs2 rs3 rm &&& 0x0600007F = b ∧ ReadsR4 rd rs1 rs2 rs3 rm (encodeR4 b rd rs1 rs2 rs3 rm) := by
  refine ⟨(encodeR4_and _ _ _ _ _ _ _ (by decide) (by decide) (by decide)).trans h, ?_⟩
  rw [← h]
  simp [ReadsR4, ReadsRm, ReadsR, ReadsUnary, rdOf, rs1Of, rs2Of, rs3Of, rmOf, encodeR4, encodeRm, encodeR,
    BitVec.extractLsb'_or, BitVec.extractLsb'_and]

theorem encodeI_reads (imm : BitVec 12) (h : b &&& 0x0000707F = b) :
    encodeI b rd rs1 imm &&& 0x0000707F = b ∧ ReadsI rd rs1 imm (encodeI b rd rs1 imm) := by
  refine ⟨(encodeI_and _ _ _ _ _ (by decide)).trans h, ?_⟩
  rw [← h]
  simp [ReadsI, ReadsUnary, rdOf, rs1Of, immI, encodeI, BitVec.extractLsb'_or, BitVec.extractLsb'_and]

theorem encodeS_reads (imm : BitVec 12) (h : b &&& 0x0000707F = b) :
    encodeS b rs1 rs2 imm &&& 0x0000707F = b ∧ ReadsS rs1 rs2 imm (encodeS b rs1 rs2 imm) := by
  refine ⟨(encodeS_and _ _ _ _ _ (by decide)).trans h, ?_⟩
  rw [← h]
  simp [ReadsS, rs1Of, rs2Of, immS, encodeS, BitVec.extractLsb'_or, BitVec.extractLsb'_and, append_fields_immS]

theorem encodeB_reads {imm : BitVec 13} (heven : evenOffset imm = true) (h : b &&& 0x0000707F = b) :
    encodeB b rs1 rs2 imm &&& 0x0000707F = b ∧ ReadsB rs1 rs2 imm (encodeB b rs1 rs2 imm) := by
  refine ⟨(encodeB_and _ _ _ _ _ (by decide) (by decide)).trans h, ?_⟩
  rw [← h]
  simp [ReadsB, rs1Of, rs2Of, immB, encodeB, BitVec.extractLsb'_or, BitVec.extractLsb'_and, append_fields_immB heven]

theorem encodeU_reads {imm : Word} (hupper : upperOnly imm = true) (h : b &&& 0x0000007F = b) :
    encodeU b rd imm &&& 0x0000007F = b ∧ ReadsU rd imm (encodeU b rd imm) := by
  refine ⟨(encodeU_and _ _ _ _ (by decide)).trans h, ?_⟩
  rw [← h]
  simp [ReadsU, rdOf, immU, encodeU, BitVec.extractLsb'_or, BitVec.extractLsb'_and, append_field_immU hupper]

theorem encodeJ_reads {imm : BitVec 21} (heven : evenOffset imm = true) (h : b &&& 0x0000007F = b) :
    encodeJ b rd imm &&& 0x0000007F = b ∧ ReadsJ rd imm (encodeJ b rd imm) := by
  refine ⟨(encodeJ_and _ _ _ _ (by decide) (by decide)).trans h, ?_⟩
  rw [← h]
  simp [ReadsJ, rdOf, immJ, encodeJ, BitVec.extractLsb'_or, BitVec.extractLsb'_and, append_fields_immJ heven]

theorem encodeFence_reads (pred succ : BitVec 4) (h : b &&& 0xF00FFFFF = b) :
    encodeFence b pred succ &&& 0xF00FFFFF = b ∧ ReadsFence pred succ (encodeFence b pred succ) := by
  refine ⟨(encodeFence_and _ _ _ _ (by decide)).trans h, ?_⟩
  rw [← h]
  simp [ReadsFence, predOf, succOf, encodeFence, BitVec.extractLsb'_or, BitVec.extractLsb'_and]

end

/-! ### From an instruction to its word and back (R246) -/

/-- The reference descriptor of an instruction's behaviour: `Instr` and `Op` list the rows of the opcode table in the
same order. -/
def Instr.row (i : Instr) : Option Descriptor := descriptors.find? (fun d => d.op.ctorIdx == i.ctorIdx)

/-- A reference descriptor holds the instruction's word in its fixed bits and reads the instruction from it. -/
def RoundTrips (i : Instr) : Prop := ∃ d ∈ descriptors, encode i &&& d.mask = d.pattern ∧ d.build (encode i) = i

/-- A reference descriptor's match has no bit outside its mask (R243 (a)). -/
theorem pattern_and_mask : ∀ d ∈ descriptors, d.pattern &&& d.mask = d.pattern := by decide +kernel

/-- An instruction round-trips if its word keeps the match in the fixed bits and has fields, `Reads`, that the descriptor
builds the instruction from. -/
theorem RoundTrips.of_reads {i : Instr} {d : Descriptor} {w m : Word} {Reads : Word → Prop} (hrow : i.row = some d)
    (hmask : d.mask = m) (hencode : encode i = w) (h : d.pattern &&& m = d.pattern → w &&& m = d.pattern ∧ Reads w)
    (hbuild : ∀ w, Reads w → d.build w = i) : RoundTrips i := by
  have hd : d ∈ descriptors := List.mem_of_find?_eq_some hrow
  subst hmask hencode
  obtain ⟨hfixed, hreads⟩ := h (pattern_and_mask d hd)
  exact ⟨d, hd, hfixed, hbuild _ hreads⟩

/-- Every well-formed instruction round-trips: per format, from what the fields of the encoder's word read. -/
theorem roundTrips_of_wellFormed (i : Instr) (h : wellFormed i = true) : RoundTrips i := by
  cases i with
  | lui rd imm | auipc rd imm =>
    exact .of_reads rfl rfl rfl (encodeU_reads rd h) (by rintro w ⟨rfl, rfl⟩; rfl)
  | jal rd imm =>
    exact .of_reads rfl rfl rfl (encodeJ_reads rd h) (by rintro w ⟨rfl, rfl⟩; rfl)
  | beq rs1 rs2 imm | bne rs1 rs2 imm | blt rs1 rs2 imm | bge rs1 rs2 imm | bltu rs1 rs2 imm | bgeu rs1 rs2 imm =>
    exact .of_reads rfl rfl rfl (encodeB_reads rs1 rs2 h) (by rintro w ⟨rfl, rfl, rfl⟩; rfl)
  | addi rd rs1 imm | slti rd rs1 imm | sltiu rd rs1 imm | xori rd rs1 imm | ori rd rs1 imm | andi rd rs1 imm
  | jalr rd rs1 imm | lb rd rs1 imm | lh rd rs1 imm | lw rd rs1 imm | lbu rd rs1 imm | lhu rd rs1 imm | flw rd rs1 imm
  | fld rd rs1 imm | csrrw rd imm rs1 | csrrs rd imm rs1 | csrrc rd imm rs1 | csrrwi rd imm rs1 | csrrsi rd imm rs1
  | csrrci rd imm rs1 =>
    exact .of_reads rfl rfl rfl (encodeI_reads rd rs1 imm) (by rintro w ⟨⟨rfl, rfl⟩, rfl⟩; rfl)
  | sb rs1 rs2 imm | sh rs1 rs2 imm | sw rs1 rs2 imm | fsw rs1 rs2 imm | fsd rs1 rs2 imm =>
    exact .of_reads rfl rfl rfl (encodeS_reads rs1 rs2 imm) (by rintro w ⟨rfl, rfl, rfl⟩; rfl)
  | slli rd rs1 rs2 | srli rd rs1 rs2 | srai rd rs1 rs2 | add rd rs1 rs2 | sub rd rs1 rs2 | sll rd rs1 rs2
  | slt rd rs1 rs2 | sltu rd rs1 rs2 | xor rd rs1 rs2 | srl rd rs1 rs2 | sra rd rs1 rs2 | or rd rs1 rs2 | and rd rs1 rs2
  | mul rd rs1 rs2 | mulh rd rs1 rs2 | mulhsu rd rs1 rs2 | mulhu rd rs1 rs2 | div rd rs1 rs2 | divu rd rs1 rs2
  | rem rd rs1 rs2 | remu rd rs1 rs2 | fsgnjS rd rs1 rs2 | fsgnjnS rd rs1 rs2 | fsgnjxS rd rs1 rs2 | fminS rd rs1 rs2
  | fmaxS rd rs1 rs2 | feqS rd rs1 rs2 | fltS rd rs1 rs2 | fleS rd rs1 rs2 | fsgnjD rd rs1 rs2 | fsgnjnD rd rs1 rs2
  | fsgnjxD rd rs1 rs2 | fminD rd rs1 rs2 | fmaxD rd rs1 rs2 | feqD rd rs1 rs2 | fltD rd rs1 rs2 | fleD rd rs1 rs2 =>
    exact .of_reads rfl rfl rfl (encodeR_reads rd rs1 rs2) (by rintro w ⟨⟨rfl, rfl⟩, rfl⟩; rfl)
  | faddS rd rs1 rs2 rm | fsubS rd rs1 rs2 rm | fmulS rd rs1 rs2 rm | fdivS rd rs1 rs2 rm | faddD rd rs1 rs2 rm
  | fsubD rd rs1 rs2 rm | fmulD rd rs1 rs2 rm | fdivD rd rs1 rs2 rm =>
    exact .of_reads rfl rfl rfl (encodeRm_reads rd rs1 rs2 rm) (by rintro w ⟨⟨⟨rfl, rfl⟩, rfl⟩, rfl⟩; rfl)
  | fmaddS rd rs1 rs2 rs3 rm | fmsubS rd rs1 rs2 rs3 rm | fnmsubS rd rs1 rs2 rs3 rm | fnmaddS rd rs1 rs2 rs3 rm
  | fmaddD rd rs1 rs2 rs3 rm | fmsubD rd rs1 rs2 rs3 rm | fnmsubD rd rs1 rs2 rs3 rm | fnmaddD rd rs1 rs2 rs3 rm =>
    exact .of_reads rfl rfl rfl (encodeR4_reads rd rs1 rs2 rs3 rm)
      (by rintro w ⟨⟨⟨⟨rfl, rfl⟩, rfl⟩, rfl⟩, rfl⟩; rfl)
  | fclassS rd rs1 | fmvXW rd rs1 | fmvWX rd rs1 | fclassD rd rs1 =>
    exact .of_reads rfl rfl rfl (encodeUnary_reads rd rs1) (by rintro w ⟨rfl, rfl⟩; rfl)
  | fsqrtS rd rs1 rm | fcvtWS rd rs1 rm | fcvtWuS rd rs1 rm | fcvtSW rd rs1 rm | fcvtSWu rd rs1 rm | fsqrtD rd rs1 rm
  | fcvtSD rd rs1 rm | fcvtDS rd rs1 rm | fcvtWD rd rs1 rm | fcvtWuD rd rs1 rm | fcvtDW rd rs1 rm
  | fcvtDWu rd rs1 rm =>
    exact .of_reads rfl rfl rfl (encodeUnaryRm_reads rd rs1 rm) (by rintro w ⟨⟨rfl, rfl⟩, rfl⟩; rfl)
  | fence pred succ =>
    exact .of_reads rfl rfl rfl (encodeFence_reads pred succ) (by rintro w ⟨rfl, rfl⟩; rfl)
  | fenceI | ecall | ebreak | uret | wfi =>
    exact .of_reads (Reads := fun _ => True) rfl rfl rfl (fun h => ⟨h, trivial⟩) (fun _ _ => rfl)

/-- The descriptor the decoder finds is the one that accepts the word (R240). -/
theorem decodeWith_descriptors_iff (w : Word) (d : Descriptor) :
    decodeWith descriptors w = some d ↔ d ∈ descriptors ∧ w &&& d.mask = d.pattern := by
  rw [decodeWith, groupTables_descriptors, lookup_iff, Descriptor.accepts, beq_iff_eq]

/-- Settles O1: the descriptor the instruction round-trips through is the one the decoder finds. -/
theorem decodeEncodeRoundTrip : Obligations.DecodeEncodeRoundTrip := by
  intro i hwf
  obtain ⟨d, hd, hfixed, hbuild⟩ := roundTrips_of_wellFormed i hwf
  refine ⟨d, hd, (decodeWith_descriptors_iff _ d).mpr ⟨hd, hfixed⟩, hbuild, hfixed, ?_⟩
  rw [decode_of_accepts hd (beq_iff_eq.mpr hfixed), hbuild]

/-! ### From a word to its instruction and back (R239) -/

/-- The S-immediate of a word holds its two fields (R252). -/
theorem immS_fields (w : Word) :
    (immS w).extractLsb' 5 7 = w.extractLsb' 25 7 ∧ (immS w).extractLsb' 0 5 = w.extractLsb' 7 5 :=
  ⟨BitVec.extractLsb'_append_eq_left, BitVec.extractLsb'_append_eq_right⟩

/-- The last part of a concatenation is dropped from a field above it. -/
theorem extractLsb'_append_add (x : BitVec m) (y : BitVec n) (k l : Nat) :
    (x ++ y).extractLsb' (k + n) l = x.extractLsb' k l := by
  rw [BitVec.extractLsb'_append_eq_of_le (Nat.le_add_left n k), Nat.add_sub_cancel]

/-- The part before the last one stands just above it. -/
theorem extractLsb'_append_append (x : BitVec m) (y : BitVec n) (z : BitVec p) :
    (x ++ y ++ z).extractLsb' p n = y := by
  rw [BitVec.extractLsb'_append_eq_of_le le_rfl, Nat.sub_self, BitVec.extractLsb'_append_eq_right]

/-- The first four parts of a concatenation of five, each from its place. -/
theorem extractLsb'_append_parts (a : BitVec m) (b : BitVec n) (c : BitVec o) (d : BitVec p) (e : BitVec q) :
    (a ++ b ++ c ++ d ++ e).extractLsb' (n + o + p + q) m = a ∧
    (a ++ b ++ c ++ d ++ e).extractLsb' (o + p + q) n = b ∧
    (a ++ b ++ c ++ d ++ e).extractLsb' (p + q) o = c ∧ (a ++ b ++ c ++ d ++ e).extractLsb' q p = d := by
  simp only [extractLsb'_append_add, extractLsb'_append_append, BitVec.extractLsb'_append_eq_left, and_self]

/-- The B-immediate of a word holds its four fields (R253). -/
theorem immB_fields (w : Word) : (immB w).extractLsb' 12 1 = w.extractLsb' 31 1 ∧
    (immB w).extractLsb' 11 1 = w.extractLsb' 7 1 ∧ (immB w).extractLsb' 5 6 = w.extractLsb' 25 6 ∧
    (immB w).extractLsb' 1 4 = w.extractLsb' 8 4 :=
  extractLsb'_append_parts _ _ _ _ 0#1

/-- The U-immediate of a word holds its field (R254). -/
theorem immU_field (w : Word) : (immU w).extractLsb' 12 20 = w.extractLsb' 12 20 := BitVec.extractLsb'_append_eq_left

/-- The J-immediate of a word holds its four fields (R255). -/
theorem immJ_fields (w : Word) : (immJ w).extractLsb' 20 1 = w.extractLsb' 31 1 ∧
    (immJ w).extractLsb' 12 8 = w.extractLsb' 12 8 ∧ (immJ w).extractLsb' 11 1 = w.extractLsb' 20 1 ∧
    (immJ w).extractLsb' 1 10 = w.extractLsb' 21 10 :=
  extractLsb'_append_parts _ _ _ _ 0#1

/-! Per format: a word is its fixed bits and its fields, placed where they were read. -/

section

variable {b w : Word}

theorem encodeUnary_of_fixed (h : w &&& 0xFFF0707F = b) : encodeUnary b (rdOf w) (rs1Of w) = w := by
  simp only [encodeUnary, rdOf, rs1Of, place_extractLsb', ← h, ← BitVec.and_or_distrib_left]
  exact BitVec.and_allOnes

theorem encodeUnaryRm_of_fixed (h : w &&& 0xFFF0007F = b) : encodeUnaryRm b (rdOf w) (rs1Of w) (rmOf w) = w := by
  simp only [encodeUnaryRm, encodeUnary, rdOf, rs1Of, rmOf, place_extractLsb', ← h, ← BitVec.and_or_distrib_left]
  exact BitVec.and_allOnes

theorem encodeR_of_fixed (h : w &&& 0xFE00707F = b) : encodeR b (rdOf w) (rs1Of w) (rs2Of w) = w := by
  simp only [encodeR, rdOf, rs1Of, rs2Of, place_extractLsb', ← h, ← BitVec.and_or_distrib_left]
  exact BitVec.and_allOnes

theorem encodeRm_of_fixed (h : w &&& 0xFE00007F = b) : encodeRm b (rdOf w) (rs1Of w) (rs2Of w) (rmOf w) = w := by
  simp only [encodeRm, encodeR, rdOf, rs1Of, rs2Of, rmOf, place_extractLsb', ← h, ← BitVec.and_or_distrib_left]
  exact BitVec.and_allOnes

theorem encodeR4_of_fixed (h : w &&& 0x0600007F = b) :
    encodeR4 b (rdOf w) (rs1Of w) (rs2Of w) (rs3Of w) (rmOf w) = w := by
  simp only [encodeR4, encodeRm, encodeR, rdOf, rs1Of, rs2Of, rs3Of, rmOf, place_extractLsb', ← h,
    ← BitVec.and_or_distrib_left]
  exact BitVec.and_allOnes

theorem encodeI_of_fixed (h : w &&& 0x0000707F = b) : encodeI b (rdOf w) (rs1Of w) (immI w) = w := by
  simp only [encodeI, rdOf, rs1Of, immI, place_extractLsb', ← h, ← BitVec.and_or_distrib_left]
  exact BitVec.and_allOnes

theorem encodeS_of_fixed (h : w &&& 0x0000707F = b) : encodeS b (rs1Of w) (rs2Of w) (immS w) = w := by
  simp only [encodeS, rs1Of, rs2Of, immS_fields, place_extractLsb', ← h, ← BitVec.and_or_distrib_left]
  exact BitVec.and_allOnes

theorem encodeB_of_fixed (h : w &&& 0x0000707F = b) : encodeB b (rs1Of w) (rs2Of w) (immB w) = w := by
  simp only [encodeB, rs1Of, rs2Of, immB_fields, place_extractLsb', ← h, ← BitVec.and_or_distrib_left]
  exact BitVec.and_allOnes

theorem encodeU_of_fixed (h : w &&& 0x0000007F = b) : encodeU b (rdOf w) (immU w) = w := by
  simp only [encodeU, rdOf, immU_field, place_extractLsb', ← h, ← BitVec.and_or_distrib_left]
  exact BitVec.and_allOnes

theorem encodeJ_of_fixed (h : w &&& 0x0000007F = b) : encodeJ b (rdOf w) (immJ w) = w := by
  simp only [encodeJ, rdOf, immJ_fields, place_extractLsb', ← h, ← BitVec.and_or_distrib_left]
  exact BitVec.and_allOnes

theorem encodeFence_of_fixed (h : w &&& 0xF00FFFFF = b) : encodeFence b (predOf w) (succOf w) = w := by
  simp only [encodeFence, predOf, succOf, place_extractLsb', ← h, ← BitVec.and_or_distrib_left]
  exact BitVec.and_allOnes

end

/-! Per table: how the instruction a row builds from a word is encoded. A table's rows are evaluated at once. -/

/-- Every row of a list is encoded as `g` says, if the list of the rows' encodings is the list `g` gives. -/
theorem encode_build_eq (g : Descriptor → Word → Word) {rows : List Descriptor}
    (h : rows.map (fun d w => encode (d.build w)) = rows.map g) {d : Descriptor} (hd : d ∈ rows) (w : Word) :
    encode (d.build w) = g d w := congrFun (List.map_inj_left.mp h d hd) w

/-- The word's fields placed over a base, in a format that has an immediate. -/
def encodeImmediate (f : Format) (b w : Word) : Word :=
  match f with
  | .I => encodeI b (rdOf w) (rs1Of w) (immI w)
  | .S => encodeS b (rs1Of w) (rs2Of w) (immS w)
  | .B => encodeB b (rs1Of w) (rs2Of w) (immB w)
  | .U => encodeU b (rdOf w) (immU w)
  | .J => encodeJ b (rdOf w) (immJ w)
  | .R | .R4 => b

section

variable {d : Descriptor} {w : Word}

theorem encode_build_rowsExact (hd : d ∈ rowsExact) (h : w &&& 0xFFFFFFFF = d.pattern) : encode (d.build w) = w :=
  (encode_build_eq (fun d _ => d.pattern) rfl hd w).trans (h.symm.trans BitVec.and_allOnes)

theorem encode_build_rowsFence (hd : d ∈ rowsFence) (h : w &&& 0xF00FFFFF = d.pattern) : encode (d.build w) = w :=
  (encode_build_eq (fun d w => encodeFence d.pattern (predOf w) (succOf w)) rfl hd w).trans (encodeFence_of_fixed h)

theorem encode_build_rowsUnary (hd : d ∈ rowsUnary) (h : w &&& 0xFFF0707F = d.pattern) : encode (d.build w) = w :=
  (encode_build_eq (fun d w => encodeUnary d.pattern (rdOf w) (rs1Of w)) rfl hd w).trans (encodeUnary_of_fixed h)

theorem encode_build_rowsUnaryRm (hd : d ∈ rowsUnaryRm) (h : w &&& 0xFFF0007F = d.pattern) : encode (d.build w) = w :=
  (encode_build_eq (fun d w => encodeUnaryRm d.pattern (rdOf w) (rs1Of w) (rmOf w)) rfl hd w).trans
    (encodeUnaryRm_of_fixed h)

theorem encode_build_rowsR (hd : d ∈ rowsR) (h : w &&& 0xFE00707F = d.pattern) : encode (d.build w) = w :=
  (encode_build_eq (fun d w => encodeR d.pattern (rdOf w) (rs1Of w) (rs2Of w)) rfl hd w).trans (encodeR_of_fixed h)

theorem encode_build_rowsRm (hd : d ∈ rowsRm) (h : w &&& 0xFE00007F = d.pattern) : encode (d.build w) = w :=
  (encode_build_eq (fun d w => encodeRm d.pattern (rdOf w) (rs1Of w) (rs2Of w) (rmOf w)) rfl hd w).trans
    (encodeRm_of_fixed h)

theorem encode_build_rowsFunct3 (hd : d ∈ rowsFunct3) (h : w &&& 0x0000707F = d.pattern) : encode (d.build w) = w := by
  have hformat : ∀ d ∈ rowsFunct3, d.format = .I ∨ d.format = .S ∨ d.format = .B := by decide +kernel
  rw [encode_build_eq (fun d w => encodeImmediate d.format d.pattern w) rfl hd w]
  rcases hformat d hd with hf | hf | hf <;> rw [hf]
  exacts [encodeI_of_fixed h, encodeS_of_fixed h, encodeB_of_fixed h]

theorem encode_build_rowsR4 (hd : d ∈ rowsR4) (h : w &&& 0x0600007F = d.pattern) : encode (d.build w) = w :=
  (encode_build_eq (fun d w => encodeR4 d.pattern (rdOf w) (rs1Of w) (rs2Of w) (rs3Of w) (rmOf w)) rfl hd w).trans
    (encodeR4_of_fixed h)

theorem encode_build_rowsOpcode (hd : d ∈ rowsOpcode) (h : w &&& 0x0000007F = d.pattern) : encode (d.build w) = w := by
  have hformat : ∀ d ∈ rowsOpcode, d.format = .U ∨ d.format = .J := by decide +kernel
  rw [encode_build_eq (fun d w => encodeImmediate d.format d.pattern w) rfl hd w]
  rcases hformat d hd with hf | hf <;> rw [hf]
  exacts [encodeU_of_fixed h, encodeJ_of_fixed h]

/-- What a reference descriptor builds from a word it accepts is encoded to that word. -/
theorem encode_build (hd : d ∈ descriptors) (h : w &&& d.mask = d.pattern) : encode (d.build w) = w := by
  obtain ⟨T, hT, hrow⟩ := List.mem_flatMap.mp hd
  rw [referenceTables_masks T hT d hrow] at h
  simp only [referenceTables, List.mem_cons, List.not_mem_nil, or_false] at hT
  rcases hT with rfl | rfl | rfl | rfl | rfl | rfl | rfl | rfl | rfl
  exacts [encode_build_rowsExact hrow h, encode_build_rowsFence hrow h, encode_build_rowsUnary hrow h,
    encode_build_rowsUnaryRm hrow h, encode_build_rowsR hrow h, encode_build_rowsRm hrow h,
    encode_build_rowsFunct3 hrow h, encode_build_rowsR4 hrow h, encode_build_rowsOpcode hrow h]

end

/-- Settles O2: a decoded word was accepted by a descriptor, and what that builds is encoded to the word. -/
theorem encodeDecodeRoundTrip : Obligations.EncodeDecodeRoundTrip := by
  intro w i h
  obtain ⟨d, hd, haccepts, rfl⟩ := accepts_of_decode h
  exact ⟨encode_build hd (beq_iff_eq.mp haccepts), wellFormed_build d.op w⟩

/-! ### Grouping descriptors by mask (R241) -/

theorem triedBefore_iff (m n : Word) : triedBefore m n = true ↔
    popcount n < popcount m ∨ (popcount m = popcount n ∧ m.toNat < n.toNat) := by
  simp [triedBefore]

theorem triedBefore_trans {l m n : Word} (h : triedBefore l m = true) (h' : triedBefore m n = true) :
    triedBefore l n = true := by
  rw [triedBefore_iff] at *
  omega

theorem ne_of_triedBefore {m n : Word} (h : triedBefore m n = true) : m ≠ n := by
  rintro rfl
  rw [triedBefore_iff] at h
  omega

/-- Of two masks one is tried before the other. -/
theorem triedBefore_of_not {m n : Word} (hne : m ≠ n) (h : ¬ triedBefore m n = true) : triedBefore n m = true := by
  have hnat : m.toNat ≠ n.toNat := mt BitVec.eq_of_toNat_eq hne
  rw [triedBefore_iff] at *
  omega

/-- The table of one mask: it is not empty and its rows have its mask. -/
def MatchTable.OfMask (T : MatchTable) : Prop := T.rows ≠ [] ∧ ∀ d ∈ T.rows, d.mask = T.mask

/-- The tables are those of their masks, in the order they are tried. -/
def Grouped (ts : List MatchTable) : Prop :=
  ts.Pairwise (fun T U => triedBefore T.mask U.mask = true) ∧ ∀ T ∈ ts, T.OfMask

theorem ofMask_singleton (d : Descriptor) : MatchTable.OfMask ⟨d.mask, [d]⟩ := by
  simp [MatchTable.OfMask]

theorem MatchTable.OfMask.cons {T : MatchTable} {d : Descriptor} (h : T.OfMask) (hd : d.mask = T.mask) :
    MatchTable.OfMask ⟨T.mask, d :: T.rows⟩ :=
  ⟨List.cons_ne_nil _ _, List.forall_mem_cons.mpr ⟨hd, h.2⟩⟩

/-- An inserted row brings no mask but its own. -/
theorem mask_of_mem_insertRow {d : Descriptor} {T : MatchTable} : ∀ {ts : List MatchTable}, T ∈ insertRow d ts →
    T.mask = d.mask ∨ ∃ U ∈ ts, T.mask = U.mask
  | [], h => by simp_all [insertRow]
  | U :: ts, h => by
    unfold insertRow at h
    split_ifs at h with hsame hfirst
    · rcases List.mem_cons.mp h with rfl | h
      · exact .inr ⟨U, List.mem_cons_self, rfl⟩
      · exact .inr ⟨T, List.mem_cons_of_mem _ h, rfl⟩
    · rcases List.mem_cons.mp h with rfl | h
      · exact .inl rfl
      · exact .inr ⟨T, h, rfl⟩
    · rcases List.mem_cons.mp h with rfl | h
      · exact .inr ⟨T, List.mem_cons_self, rfl⟩
      · rcases mask_of_mem_insertRow h with h | ⟨V, hV, h⟩
        · exact .inl h
        · exact .inr ⟨V, List.mem_cons_of_mem _ hV, h⟩

/-- The rows after an insertion are the new one and those there were. -/
theorem exists_mem_insertRow (d e : Descriptor) : ∀ ts : List MatchTable,
    (∃ T ∈ insertRow d ts, e ∈ T.rows) ↔ e = d ∨ ∃ T ∈ ts, e ∈ T.rows
  | [] => by simp [insertRow]
  | U :: ts => by
    unfold insertRow
    split_ifs
    · simp [or_assoc]
    · simp
    · simp [exists_mem_insertRow d e ts, or_left_comm]

theorem Grouped.insertRow (d : Descriptor) : ∀ {ts : List MatchTable}, Grouped ts → Grouped (insertRow d ts)
  | [], _ => ⟨List.pairwise_singleton _ _, by simp [Sys2Proof.insertRow, ofMask_singleton]⟩
  | U :: ts, ⟨hordered, hofMask⟩ => by
    obtain ⟨hfirst, hordered⟩ := List.pairwise_cons.mp hordered
    obtain ⟨hU, hts⟩ := List.forall_mem_cons.mp hofMask
    unfold Sys2Proof.insertRow
    split_ifs with hsame hbefore
    case pos =>
      exact ⟨.cons hfirst hordered, List.forall_mem_cons.mpr ⟨hU.cons hsame, hts⟩⟩
    case pos =>
      refine ⟨.cons (List.forall_mem_cons.mpr ⟨hbefore, fun T hT => triedBefore_trans hbefore (hfirst T hT)⟩)
        (.cons hfirst hordered), List.forall_mem_cons.mpr ⟨ofMask_singleton d, hofMask⟩⟩
    case neg =>
      obtain ⟨hordered', hts'⟩ := Grouped.insertRow d ⟨hordered, hts⟩
      refine ⟨.cons (fun T hT => ?_) hordered', List.forall_mem_cons.mpr ⟨hU, hts'⟩⟩
      rcases mask_of_mem_insertRow hT with h | ⟨V, hV, h⟩ <;> rw [h]
      · exact triedBefore_of_not hsame hbefore
      · exact hfirst V hV

theorem grouped_groupTables : ∀ ds : List Descriptor, Grouped (groupTables ds)
  | [] => ⟨.nil, by simp [groupTables]⟩
  | d :: ds => (grouped_groupTables ds).insertRow d

/-- Grouping keeps every row and brings no other. -/
theorem mem_groupTables (e : Descriptor) : ∀ ds : List Descriptor, e ∈ ds ↔ ∃ T ∈ groupTables ds, e ∈ T.rows
  | [] => by simp [groupTables]
  | d :: ds => by
    have hinsert := exists_mem_insertRow d e (groupTables ds)
    rw [← mem_groupTables e ds, ← List.mem_cons] at hinsert
    exact hinsert.symm

/-- Settles O6: grouping by insertion keeps the order; the reference tables are evaluated. -/
theorem matchTableOrder : Obligations.MatchTableOrder := by
  refine ⟨fun ds => ?_, triedBefore_iff, ?_⟩
  · obtain ⟨hordered, hofMask⟩ := grouped_groupTables ds
    exact ⟨hordered.imp fun h => ⟨ne_of_triedBefore h, h⟩, hofMask, fun d => mem_groupTables d ds⟩
  · rw [groupTables_descriptors]
    decide +kernel

/-! ### The check of a descriptor table (R243) -/

theorem and_mask_of_and_not_mask {p m : Word} (h : p &&& ~~~m = 0) : p &&& m = p := by
  calc p &&& m = p &&& m ||| p &&& ~~~m := by simp [h]
    _ = p := by rw [← BitVec.and_or_distrib_left, BitVec.or_not_self, BitVec.and_allOnes]

theorem Descriptor.wellFormed_iff (d : Descriptor) :
    d.wellFormed = true ↔ d.pattern &&& ~~~d.mask = 0 ∧ d.mask &&& 0x7F = 0x7F := by
  simp [Descriptor.wellFormed]

/-- The union of two matches that agree on the common mask `m &&& n` holds the first one in its own mask. -/
theorem or_and_mask {p q m n : Word} (hp : p &&& m = p) (hagree : p &&& n = q &&& m) : (p ||| q) &&& m = p :=
  calc (p ||| q) &&& m = p &&& m ||| q &&& m := by
        rw [BitVec.and_comm, BitVec.and_or_distrib_left, BitVec.and_comm m p, BitVec.and_comm m q]
    _ = p ||| p &&& n := by rw [hp, hagree]
    _ = p := by ext i hi; simp +contextual

/-- Two descriptors overlap exactly if some word is consistent with both: the union of their matches is one. -/
theorem overlaps_iff {d e : Descriptor} (hd : d.pattern &&& ~~~d.mask = 0) (he : e.pattern &&& ~~~e.mask = 0) :
    d.overlaps e = true ↔ ∃ w : Word, w &&& d.mask = d.pattern ∧ w &&& e.mask = e.pattern := by
  constructor
  · intro h
    have hagree : d.pattern &&& e.mask = e.pattern &&& d.mask := beq_iff_eq.mp h
    refine ⟨d.pattern ||| e.pattern, or_and_mask (and_mask_of_and_not_mask hd) hagree, ?_⟩
    rw [BitVec.or_comm]
    exact or_and_mask (and_mask_of_and_not_mask he) hagree.symm
  · rintro ⟨w, hwd, hwe⟩
    exact overlaps_of_accepts (beq_iff_eq.mpr hwd) (beq_iff_eq.mpr hwe)

theorem compatible_iff {d e : Descriptor} (hd : d.pattern &&& ~~~d.mask = 0) (he : e.pattern &&& ~~~e.mask = 0) :
    d.compatible e = true ↔ ¬ (d.mask = e.mask ∧ d.pattern = e.pattern) ∧
      (d.mask ≠ e.mask → popcount d.mask = popcount e.mask →
        ∀ w : Word, ¬ (w &&& d.mask = d.pattern ∧ w &&& e.mask = e.pattern)) := by
  rw [← not_exists, ← overlaps_iff hd he]
  simp [Descriptor.compatible, imp_iff_not_or, or_assoc]

/-- The check looks at every row and at every pair of rows. -/
theorem wellFormedTable_iff_pairwise : ∀ ds : List Descriptor, wellFormedTable ds = true ↔
    (∀ d ∈ ds, d.wellFormed = true) ∧ ds.Pairwise (fun d e => d.compatible e = true)
  | [] => by simp [wellFormedTable]
  | d :: ds => by
    rw [List.forall_mem_cons, List.pairwise_cons, wellFormedTable, Bool.and_eq_true, Bool.and_eq_true, List.all_eq_true,
      wellFormedTable_iff_pairwise ds]
    tauto

theorem wellFormedTable_descriptors : wellFormedTable descriptors = true := by decide +kernel

/-- Settles O4: the check holds of every row and every pair, and each of the two checks means what the rule says. -/
theorem tableWellFormedness : Obligations.TableWellFormedness := by
  refine ⟨fun ds => ?_, wellFormedTable_descriptors, Laws.Placed.length_descriptors, ?_⟩
  · simp only [wellFormedTable_iff_pairwise, Descriptor.wellFormed_iff]
    refine and_congr_right fun hrows => List.Pairwise.iff_of_mem fun hd he => ?_
    exact compatible_iff (hrows _ hd).1 (hrows _ he).1
  · refine descriptors_pairwise.imp fun hdisjoint w ⟨hd, he⟩ => ?_
    have hoverlaps := overlaps_of_accepts (beq_iff_eq.mpr hd) (beq_iff_eq.mpr he)
    exact absurd hoverlaps (by simp [hdisjoint])

/-! ### Decoding over any descriptor table (R240, R242) -/

theorem lookupTables_eq_findSome? (w : Word) : ∀ ts : List MatchTable,
    lookupTables w ts = ts.findSome? (fun T => T.lookup w)
  | [] => rfl
  | T :: ts => by
    rw [lookupTables, List.findSome?_cons, lookupTables_eq_findSome? w ts]
    cases T.lookup w <;> rfl

/-- The table of a mask holds no consistent row exactly if its lookup answers none (R242). -/
theorem MatchTable.OfMask.lookup_eq_none_iff {T : MatchTable} (hT : T.OfMask) (w : Word) :
    T.lookup w = none ↔ ∀ d ∈ T.rows, w &&& d.mask ≠ d.pattern := by
  simp only [MatchTable.lookup, List.find?_eq_none, beq_iff_eq]
  refine forall₂_congr fun d hd => ?_
  rw [hT.2 d hd, eq_comm]

/-- What a lookup finds is a row of the table that accepts the word (R242). -/
theorem MatchTable.OfMask.of_lookup {T : MatchTable} (hT : T.OfMask) {w : Word} {d : Descriptor}
    (h : T.lookup w = some d) : d ∈ T.rows ∧ w &&& d.mask = d.pattern := by
  obtain ⟨hrow, hpattern⟩ := lookup_some h
  exact ⟨hrow, by rw [hT.2 d hrow, hpattern]⟩

section

variable {ds : List Descriptor} {w : Word}

theorem decodeWith_eq_none_iff : decodeWith ds w = none ↔ ∀ d ∈ ds, w &&& d.mask ≠ d.pattern := by
  have hofMask := (grouped_groupTables ds).2
  rw [decodeWith, lookupTables_eq_findSome?, List.findSome?_eq_none_iff]
  constructor
  · intro h d hd
    obtain ⟨T, hT, hrow⟩ := (mem_groupTables d ds).mp hd
    exact ((hofMask T hT).lookup_eq_none_iff w).mp (h T hT) d hrow
  · intro h T hT
    exact ((hofMask T hT).lookup_eq_none_iff w).mpr fun d hrow => h d ((mem_groupTables d ds).mpr ⟨T, hT, hrow⟩)

/-- The descriptor found stands in the first table that has a row for the word: any other row that accepts the word
stands in that table too, or in one tried later. -/
theorem decodeWith_eq_some {d : Descriptor} (h : decodeWith ds w = some d) : d ∈ ds ∧ w &&& d.mask = d.pattern ∧
    ∀ e ∈ ds, w &&& e.mask = e.pattern → e.mask = d.mask ∨ triedBefore d.mask e.mask = true := by
  obtain ⟨hordered, hofMask⟩ := grouped_groupTables ds
  rw [decodeWith, lookupTables_eq_findSome?, List.findSome?_eq_some_iff] at h
  obtain ⟨before, T, after, htables, hfound, hnone⟩ := h
  have hT : T ∈ groupTables ds := htables ▸ List.mem_append_right _ List.mem_cons_self
  obtain ⟨hrow, haccepts⟩ := (hofMask T hT).of_lookup hfound
  refine ⟨(mem_groupTables d ds).mpr ⟨T, hT, hrow⟩, haccepts, fun e he haccepts' => ?_⟩
  obtain ⟨U, hU, hrow'⟩ := (mem_groupTables e ds).mp he
  have hlater : ∀ V ∈ after, triedBefore T.mask V.mask = true := by
    rw [htables] at hordered
    exact (List.pairwise_cons.mp (List.pairwise_append.mp hordered).2.1).1
  rw [(hofMask T hT).2 d hrow, (hofMask U hU).2 e hrow']
  rcases List.mem_append.mp (htables ▸ hU) with hbefore | hU'
  · exact absurd haccepts' (((hofMask U hU).lookup_eq_none_iff w).mp (hnone U hbefore) e hrow')
  · rcases List.mem_cons.mp hU' with rfl | hafter
    · exact .inl rfl
    · exact .inr (hlater U hafter)

theorem Descriptor.compatible_comm (d e : Descriptor) : d.compatible e = e.compatible d := by
  simp only [Descriptor.compatible, Descriptor.overlaps, bne, BEq.comm (a := d.mask), BEq.comm (a := d.pattern),
    BEq.comm (a := popcount d.mask), BEq.comm (a := d.pattern &&& e.mask)]

/-- Two rows of a well-formed table are compatible, in either order. -/
theorem compatible_of_ne (hwf : wellFormedTable ds = true) {d e : Descriptor} (hd : d ∈ ds) (he : e ∈ ds)
    (hne : d ≠ e) : d.compatible e = true := by
  have hsymm : Std.Symm (fun d e : Descriptor => d.compatible e = true) := 
    ⟨fun d e h => (e.compatible_comm d).trans h⟩
  exact ((wellFormedTable_iff_pairwise ds).mp hwf).2.forall hd he hne

/-- Over a well-formed table, any other descriptor that accepts the word has fewer fixed bits than the one found. -/
theorem eq_or_popcount_lt (hwf : wellFormedTable ds = true) {d e : Descriptor} (h : decodeWith ds w = some d)
    (he : e ∈ ds) (haccepts' : w &&& e.mask = e.pattern) : e = d ∨ popcount e.mask < popcount d.mask := by
  obtain ⟨hd, haccepts, hothers⟩ := decodeWith_eq_some h
  refine or_iff_not_imp_left.mpr fun hne => ?_
  have hrows := ((wellFormedTable_iff_pairwise ds).mp hwf).1
  have hpattern (d : Descriptor) (hd : d ∈ ds) := (d.wellFormed_iff.mp (hrows d hd)).1
  obtain ⟨hdistinct, hdisjoint⟩ := (compatible_iff (hpattern d hd) (hpattern e he)).mp
    (compatible_of_ne hwf hd he (Ne.symm hne))
  rcases hothers e he haccepts' with hmask | hlater
  · exact absurd ⟨hmask.symm, by rw [← haccepts, ← haccepts', hmask]⟩ hdistinct
  · rcases (triedBefore_iff _ _).mp hlater with hlt | ⟨heq, -⟩
    · exact hlt
    · exact absurd ⟨haccepts, haccepts'⟩ (hdisjoint (ne_of_triedBefore hlater) heq w)

end

/-- Settles O5: the first table with a consistent row decides, and no later row of a well-formed table fixes as much. -/
theorem decodeFindsTheDescriptor : Obligations.DecodeFindsTheDescriptor := by
  refine ⟨fun ds hwf w => ⟨decodeWith_eq_none_iff, fun d h => ?_⟩, decodeWith_descriptors_iff, fun w =>
    (Machine.decodeWith_descriptors_build w).symm⟩
  obtain ⟨hd, haccepts, -⟩ := decodeWith_eq_some h
  exact ⟨hd, haccepts, fun e he haccepts' => eq_or_popcount_lt hwf h he haccepts'⟩

/-! ### Words that are no instruction (R260, R266, R268) -/

/-- The descriptor fixes the `n` bits at bit `k` to `v` (R239). -/
def Descriptor.Fixes (d : Descriptor) (k : Nat) (v : BitVec n) : Prop :=
  d.mask.extractLsb' k n = BitVec.allOnes n ∧ d.pattern.extractLsb' k n = v

/-- A word a descriptor accepts holds what the descriptor fixes. -/
theorem extractLsb'_of_accepts {d : Descriptor} {w : Word} {k : Nat} (h : d.accepts w = true)
    (hmask : d.mask.extractLsb' k n = BitVec.allOnes n) : w.extractLsb' k n = d.pattern.extractLsb' k n := by
  rw [← beq_iff_eq.mp h, BitVec.extractLsb'_and, hmask, BitVec.and_allOnes]

theorem Descriptor.Fixes.of_accepts {d : Descriptor} {w : Word} {k : Nat} {v : BitVec n} (h : d.Fixes k v)
    (haccepts : d.accepts w = true) : w.extractLsb' k n = v :=
  (extractLsb'_of_accepts haccepts h.1).trans h.2

/-- The major opcodes of the reference set (R260). -/
def majorOpcodes : List (BitVec 7) :=
  [0b0000011, 0b0000111, 0b0001111, 0b0010011, 0b0010111, 0b0100011, 0b0100111, 0b0110011, 0b0110111, 0b1000011,
    0b1000111, 0b1001011, 0b1001111, 0b1010011, 0b1100011, 0b1100111, 0b1101111, 0b1110011]

theorem descriptors_opcode : ∀ d ∈ descriptors, d.mask.extractLsb' 0 7 = BitVec.allOnes 7 ∧
    d.pattern.extractLsb' 0 7 ∈ majorOpcodes := by decide +kernel

/-- A SYSTEM row is one of four exact words, or a CSR instruction, which funct3 tells apart from them (R260). -/
theorem descriptors_system : ∀ d ∈ descriptors, d.pattern.extractLsb' 0 7 = 0b1110011#7 →
    (d.mask = BitVec.allOnes 32 ∧ d.pattern ∈ ([0x00000073, 0x00100073, 0x00200073, 0x10500073] : List Word)) ∨
    (d.mask.extractLsb' 12 3 = BitVec.allOnes 3 ∧ d.pattern.extractLsb' 12 3 ∉ [0b000#3, 0b100#3]) := by
  decide +kernel

/-- Both fence rows fix funct3, rd, rs1 and the four bits above pred; fence.i fixes its immediate (R258, R266). -/
theorem descriptors_fence : ∀ d ∈ descriptors, d.pattern.extractLsb' 0 7 = 0b0001111#7 →
    d.mask.extractLsb' 12 3 = BitVec.allOnes 3 ∧ d.Fixes 28 0#4 ∧ d.Fixes 15 0#5 ∧ d.Fixes 7 0#5 ∧
    (d.pattern.extractLsb' 12 3 = 0b001#3 → d.Fixes 20 0#12) := by
  unfold Descriptor.Fixes
  decide +kernel

section

variable {w : Word}

/-- A word no row of its opcode accepts does not decode. -/
theorem decode_none_of_rows {opcode : BitVec 7} (hopcode : w.extractLsb' 0 7 = opcode)
    (h : ∀ d ∈ descriptors, d.pattern.extractLsb' 0 7 = opcode → ¬ d.accepts w = true) : decode w = none := by
  refine (decode_none_iff w).mpr fun d hd => Bool.eq_false_iff.mpr fun haccepts => ?_
  exact h d hd ((extractLsb'_of_accepts haccepts (descriptors_opcode d hd).1).symm.trans hopcode) haccepts

theorem decode_none_of_opcode (h : w.extractLsb' 0 7 ∉ majorOpcodes) : decode w = none :=
  decode_none_of_rows rfl fun d hd hrow _ => h (hrow ▸ (descriptors_opcode d hd).2)

theorem decode_none_of_system (hopcode : w.extractLsb' 0 7 = 0b1110011#7)
    (hexact : w ∉ ([0x00000073, 0x00100073, 0x00200073, 0x10500073] : List Word))
    (hfunct3 : w.extractLsb' 12 3 ∈ [0b000#3, 0b100#3]) : decode w = none := by
  refine decode_none_of_rows hopcode fun d hd hrow haccepts => ?_
  rcases descriptors_system d hd hrow with ⟨hmask, hpattern⟩ | ⟨hmask, hpattern⟩
  · rw [Descriptor.accepts, beq_iff_eq, hmask, BitVec.and_allOnes] at haccepts
    exact hexact (haccepts ▸ hpattern)
  · exact hpattern (extractLsb'_of_accepts haccepts hmask ▸ hfunct3)

end

/-- Settles O7: a table row that accepted such a word would fix a field the word does not hold. -/
theorem illegalEncodings : Obligations.IllegalEncodings := by
  refine ⟨decode_none_of_opcode (by decide), decode_none_of_opcode (by decide), ?system, ?fence, ?fenceI,
    fun w => decode_none_of_opcode⟩
  case system =>
    intro w hopcode h0 h1 h2 h3 hfunct3
    refine decode_none_of_system hopcode ?_ (by simpa using hfunct3)
    simp only [List.mem_cons, List.not_mem_nil, or_false, not_or]
    exact ⟨h0, h1, h2, h3⟩
  case fence =>
    intro w hopcode _ hfield
    refine decode_none_of_rows hopcode fun d hd hrow haccepts => ?_
    obtain ⟨-, hhigh, hrs1, hrd, -⟩ := descriptors_fence d hd hrow
    rcases hfield with h | h | h
    exacts [h (hhigh.of_accepts haccepts), h (hrs1.of_accepts haccepts), h (hrd.of_accepts haccepts)]
  case fenceI =>
    intro w hopcode hfunct3 hfield
    refine decode_none_of_rows hopcode fun d hd hrow haccepts => ?_
    obtain ⟨hmask, -, hrs1, hrd, himm⟩ := descriptors_fence d hd hrow
    have himm := himm ((extractLsb'_of_accepts haccepts hmask).symm.trans hfunct3)
    rcases hfield with h | h | h
    exacts [h (himm.of_accepts haccepts), h (hrs1.of_accepts haccepts), h (hrd.of_accepts haccepts)]

/-! ### Operand fields as arithmetic (R250-R258) -/

theorem toNat_extractLsb' (w : Word) (k n : Nat) : (w.extractLsb' k n).toNat = w.toNat / 2 ^ k % 2 ^ n := by
  rw [BitVec.extractLsb'_toNat, Nat.shiftRight_eq_div_pow]

theorem toInt_sext (v : BitVec n) (h : n ≤ 32) : (Machine.sext v).toInt = v.toInt := BitVec.toInt_signExtend_of_le h

/-- The sign bit of a word, as the number the highest bit of an immediate stands for. -/
theorem toInt_extractLsb'_sign (w : Word) : (w.extractLsb' 31 1).toInt = -(w.toNat / 2 ^ 31 : Nat) := by
  have hw := w.isLt
  rw [BitVec.toInt_eq_toNat_cond, toNat_extractLsb']
  split <;> omega

theorem toInt_immS (w : Word) : (immS w).toInt =
    ((w.toNat / 2 ^ 25 % 64 * 32 + w.toNat / 2 ^ 7 % 32 : Nat) : Int) - 2048 * (w.toNat / 2 ^ 31 : Nat) := by
  have hhigh : w.extractLsb' 25 7 = w.extractLsb' 31 1 ++ w.extractLsb' 25 6 := by
    rw [BitVec.extractLsb'_append_extractLsb'_eq_extractLsb' (by rfl)]
  rw [immS, hhigh, BitVec.toInt_append, BitVec.toInt_append, toInt_extractLsb'_sign, toNat_extractLsb',
    toNat_extractLsb']
  simp only [Nat.reduceAdd, Nat.reduceBEq, Bool.false_eq_true, if_false]
  omega

theorem toInt_immB (w : Word) : (immB w).toInt =
    ((w.toNat / 2 ^ 7 % 2 * 2 ^ 11 + w.toNat / 2 ^ 25 % 64 * 2 ^ 5 + w.toNat / 2 ^ 8 % 16 * 2 : Nat) : Int)
      - 4096 * (w.toNat / 2 ^ 31 : Nat) := by
  rw [immB, BitVec.toInt_append, BitVec.toInt_append, BitVec.toInt_append, BitVec.toInt_append, toInt_extractLsb'_sign,
    toNat_extractLsb', toNat_extractLsb', toNat_extractLsb']
  simp only [Nat.reduceAdd, Nat.reduceBEq, Bool.false_eq_true, if_false, BitVec.toNat_ofNat]
  omega

theorem toInt_immJ (w : Word) : (immJ w).toInt =
    ((w.toNat / 2 ^ 12 % 256 * 2 ^ 12 + w.toNat / 2 ^ 20 % 2 * 2 ^ 11 + w.toNat / 2 ^ 21 % 1024 * 2 : Nat) : Int)
      - 1048576 * (w.toNat / 2 ^ 31 : Nat) := by
  rw [immJ, BitVec.toInt_append, BitVec.toInt_append, BitVec.toInt_append, BitVec.toInt_append, toInt_extractLsb'_sign,
    toNat_extractLsb', toNat_extractLsb', toNat_extractLsb']
  simp only [Nat.reduceAdd, Nat.reduceBEq, Bool.false_eq_true, if_false, BitVec.toNat_ofNat]
  omega

theorem toNat_immU (w : Word) : (immU w).toNat = w.toNat / 2 ^ 12 * 2 ^ 12 := by
  have hw := w.isLt
  rw [immU, BitVec.toNat_append, toNat_extractLsb', BitVec.toNat_ofNat, Nat.shiftLeft_eq, Nat.zero_mod, Nat.or_zero]
  omega

/-- Settles O8: each field is an extraction, and each immediate the sum of its fields at their weights. -/
theorem operandFields : Obligations.OperandFields := fun w =>
  ⟨toNat_extractLsb' w 7 5, toNat_extractLsb' w 15 5, toNat_extractLsb' w 20 5, toNat_extractLsb' w 27 5,
    toNat_extractLsb' w 20 5, toNat_extractLsb' w 20 12, toNat_extractLsb' w 12 3, toNat_extractLsb' w 24 4,
    toNat_extractLsb' w 20 4, toInt_sext _ (by decide), (toInt_sext _ (by decide)).trans (toInt_immS w),
    (toInt_sext _ (by decide)).trans (toInt_immB w), toNat_immU w, (toInt_sext _ (by decide)).trans (toInt_immJ w)⟩

end Sys2Proof

/-! SUPPORT and PROOFS. The integer family (40_integer.md): encodings read off the descriptor table, an instruction that
writes one general register and goes on, and its result as arithmetic. -/

namespace Sys2Proof.Machine

/-! ### Encodings read off the table (R239) -/

/-- A behaviour's row of the reference table encodes what the behaviour builds. That the row stands in the table is
evaluated where the lemma is used. -/
theorem encodes_of_row (op : Op) {mask pattern : Word}
    (h : ∃ d ∈ descriptors, d.op = op ∧ d.mask = mask ∧ d.pattern = pattern := by decide) :
    Encodes mask pattern op.build := by
  obtain ⟨d, hd, rfl, rfl, rfl⟩ := h
  exact fun w hw => decode_of_accepts hd (beq_iff_eq.mpr hw)

/-- Settles O3: the decoder is evaluated on each of the twelve words. -/
theorem sampleWordsDecode : Obligations.SampleWordsDecode := by
  unfold Obligations.SampleWordsDecode
  decide

/-! ### One general register written (R300, R302) -/

/-- An instruction that comes to a write of a general register writes it and goes on to the next word; `hv` says what
the written word is. -/
theorem runs_of_writesX {i : Instr} {s : State} {rd : Reg} {v v' : Word} (hexec : exec i s = writesX s rd v)
    (hv : v = v') : Runs i s (fun t => SetsX s t rd v' 0 (s.pc + 4) 0) := by
  obtain ⟨t, hnext, hsets⟩ := writesX_runs s rd v
  exact ⟨t, hexec.trans hnext, hv ▸ hsets⟩

/-! ### Results as arithmetic -/

theorem ofBool_slt (x y : Word) : ofBool (x.slt y) = if x.toInt < y.toInt then 1 else 0 := by
  simp [ofBool, BitVec.slt]

theorem ofBool_ult (x y : Word) : ofBool (x.ult y) = if x.toNat < y.toNat then 1 else 0 := by
  simp [ofBool, BitVec.ult]

/-- A signed comparison with an immediate compares its value before the extension (R309). -/
theorem ofBool_slt_sext (x : Word) (imm : BitVec 12) :
    ofBool (x.slt (sext imm)) = if x.toInt < imm.toInt then 1 else 0 := by
  rw [ofBool_slt, toInt_sext imm (by decide)]

theorem shiftLeft_eq_ofNat (x : Word) (n : Nat) : x <<< n = BitVec.ofNat 32 (x.toNat * 2 ^ n) := by
  rw [← Nat.shiftLeft_eq]
  rfl

theorem ushiftRight_eq_ofNat (x : Word) (n : Nat) : x >>> n = BitVec.ofNat 32 (x.toNat / 2 ^ n) := by
  rw [← Nat.shiftRight_eq_div_pow, ← BitVec.toNat_ushiftRight, BitVec.ofNat_toNat, BitVec.setWidth_eq]

theorem sshiftRight_eq_ofInt (x : Word) (n : Nat) : x.sshiftRight n = BitVec.ofInt 32 (x.toInt / 2 ^ n) := by
  rw [BitVec.sshiftRight, Int.shiftRight_eq_div_pow]
  rfl

/-- A register's low five bits are its value modulo 32 (R319). -/
theorem shiftOf_eq_mod (v : Word) : shiftOf v = v.toNat % 32 := by
  simp [shiftOf]

/-! ### The integer instructions (R306-R326) -/

/-- Settles O19: each encoding is a row of the table, and each instruction writes the rule's result into `rd`. -/
theorem immediateResults : Obligations.ImmediateResults := by
  refine ⟨⟨encodes_of_row .lui, encodes_of_row .auipc, encodes_of_row .addi, encodes_of_row .slti,
    encodes_of_row .sltiu, encodes_of_row .xori, encodes_of_row .ori, encodes_of_row .andi, encodes_of_row .slli,
    encodes_of_row .srli, encodes_of_row .srai⟩, ?_⟩
  intro s rd rs1 up imm sh x v next
  refine ⟨?lui, ?auipc, ?addi, ?slti, ?sltiu, ?xori, ?ori, ?andi, ?slli, ?srli, ?srai⟩
  case lui | auipc | addi | xori | ori | andi => exact runs_of_writesX rfl rfl
  case slti => exact runs_of_writesX rfl (ofBool_slt_sext x imm)
  case sltiu => exact runs_of_writesX rfl (ofBool_ult x v)
  case slli => exact runs_of_writesX rfl (shiftLeft_eq_ofNat x _)
  case srli => exact runs_of_writesX rfl (ushiftRight_eq_ofNat x _)
  case srai => exact runs_of_writesX rfl (sshiftRight_eq_ofInt x _)

/-- Settles O20: as for the immediates, with `rs2` as the other operand and its low five bits as the shift count. -/
theorem registerResults : Obligations.RegisterResults := by
  refine ⟨⟨encodes_of_row .add, encodes_of_row .sub, encodes_of_row .sll, encodes_of_row .slt, encodes_of_row .sltu,
    encodes_of_row .xor, encodes_of_row .srl, encodes_of_row .sra, encodes_of_row .or, encodes_of_row .and⟩, ?_⟩
  intro s rd rs1 rs2 x y sh next
  have hcount : sh = shiftOf y := (shiftOf_eq_mod y).symm
  rw [hcount]
  refine ⟨?add, ?sub, ?sll, ?slt, ?sltu, ?xor, ?srl, ?sra, ?or, ?and⟩
  case add | sub | xor | or | and => exact runs_of_writesX rfl rfl
  case sll => exact runs_of_writesX rfl (shiftLeft_eq_ofNat x _)
  case slt => exact runs_of_writesX rfl (ofBool_slt x y)
  case sltu => exact runs_of_writesX rfl (ofBool_ult x y)
  case srl => exact runs_of_writesX rfl (ushiftRight_eq_ofNat x _)
  case sra => exact runs_of_writesX rfl (sshiftRight_eq_ofInt x _)

end Sys2Proof.Machine

/-! SUPPORT and PROOFS. The control family (41_control.md): jumps with a link, branches, and which instructions set `pc`
themselves. -/

namespace Sys2Proof.Machine

/-! ### Jumps and branches (R350-R359) -/

/-- A jump with a link: `rd` gets the link, and the advance leaves the target. -/
theorem jumpAndLink_advance (s : State) (rd : Reg) (target : Word) :
    SetsX s ((s.startIter.jumpTo target).writeX rd (s.pc + 4)).advance rd (s.pc + 4) 0 target 0 where
  gpr r := by
    rw [State.readX_congr (s := (s.startIter.jumpTo target).writeX rd (s.pc + 4)) (by simp), State.readX_writeX,
      State.readX_congr (t := s.startIter.jumpTo target) (s := s) (by simp)]
  fpr r := State.readF_congr (by simp) r
  csr := by simp
  pc := by simp [State.advance_pc]
  memory := .of_eq (by simp) (by simp) (by simp)
  rest := by constructor <;> simp
  draws := by simp
  completed := by constructor <;> simp [State.startIter]

/-- An instruction that comes to a jump with a link. -/
theorem runs_of_jumpAndLink {i : Instr} {s : State} {rd : Reg} {target : Word}
    (hexec : exec i s = jumpAndLink s rd target) :
    Runs i s (fun t => SetsX s t rd (s.pc + 4) 0 target 0 ∧ t.iter.pcSet = true) :=
  ⟨_, hexec, jumpAndLink_advance s rd target, by simp⟩

/-- Settles O23: both encodings are rows of the table, and both instructions come to a jump with a link. -/
theorem jumpResults : Obligations.JumpResults :=
  ⟨⟨encodes_of_row .jal, encodes_of_row .jalr⟩,
    fun _ _ _ _ _ => ⟨runs_of_jumpAndLink rfl, runs_of_jumpAndLink rfl⟩⟩

/-- An instruction that comes to a branch: it goes to the offset from its own address where the condition holds, else
to the next word; `hcond` says what the model's test means. -/
theorem runs_of_branchIf {i : Instr} {s : State} {off : BitVec 13} {test : Bool} {taken : Prop}
    (hexec : exec i s = branchIf test s off) (hcond : test = true ↔ taken) :
    Runs i s (fun t => (taken → Goes s t (s.pc + off.signExtend 32) false ∧ t.iter.pcSet = true) ∧
      (¬ taken → Goes s t (s.pc + 4) false ∧ t.iter.pcSet = false)) := by
  refine ⟨_, hexec, ?_⟩
  rw [← hcond]
  cases test with
  | true => exact ⟨fun _ => ⟨jumpTo_advance s _, by simp⟩, fun h => absurd rfl h⟩
  | false => exact ⟨nofun, fun _ => ⟨startIter_advance s, by simp [State.startIter]⟩⟩

/-- Settles O24: each encoding is a row of the table, and each instruction comes to a branch on the rule's condition. -/
theorem branchResults : Obligations.BranchResults := by
  refine ⟨⟨encodes_of_row .beq, encodes_of_row .bne, encodes_of_row .blt, encodes_of_row .bge, encodes_of_row .bltu,
    encodes_of_row .bgeu⟩, ?_⟩
  intro s rs1 rs2 off x y branches
  refine ⟨?beq, ?bne, ?blt, ?bge, ?bltu, ?bgeu⟩
  case beq => exact runs_of_branchIf rfl beq_iff_eq
  case bne => exact runs_of_branchIf rfl bne_iff_ne
  case blt => exact runs_of_branchIf rfl BitVec.slt_iff_toInt_lt
  case bge => exact runs_of_branchIf rfl (by simp [x, y, BitVec.slt])
  case bltu => exact runs_of_branchIf rfl BitVec.ult_iff_toNat_lt
  case bgeu => exact runs_of_branchIf rfl (by simp [x, y, BitVec.ult])

/-! ### Which instructions set `pc` (R350, R622) -/

@[simp] theorem State.startIter_pcSet (s : State) : s.startIter.iter.pcSet = false := rfl

/-- An answered next state has `pc_set` down. -/
def LeavesPc (res : Result) : Prop := ∀ t, res = .next t → t.iter.pcSet = false

/-- No end of a behaviour raises `pc_set`. -/
theorem LeavesPc.finish {b : Behaviour} (h : b.final.iter.pcSet = false) : LeavesPc (finish b) := by
  intro t ht
  rcases finish_next ht with rfl | ⟨e, rfl⟩ | ⟨code, rfl⟩
  · simpa using h
  · simpa [State.trapped] using h
  · simpa using h

theorem LeavesPc.retireX (s : State) (rd : Reg) (res : Word × Fflags) :
    LeavesPc (Machine.finish (.done (s.startIter.retireX rd res))) := .finish (by simp [Behaviour.final])

theorem LeavesPc.retireD (s : State) (rd : Reg) (res : DWord × Fflags) :
    LeavesPc (Machine.finish (.done (s.startIter.retireD rd res))) := .finish (by simp [Behaviour.final])

theorem LeavesPc.retireS (s : State) (rd : Reg) (res : Word × Fflags) :
    LeavesPc (Machine.finish (.done (s.startIter.retireS rd res))) := .finish (by simp [Behaviour.final])

theorem LeavesPc.writesX (s : State) (rd : Reg) (v : Word) : LeavesPc (writesX s rd v) :=
  .finish (by simp [Behaviour.final])

theorem LeavesPc.writeF (s : State) (rd : Reg) (v : DWord) :
    LeavesPc (Machine.finish (.done (s.startIter.writeF rd v))) := .finish (by simp [Behaviour.final])

theorem LeavesPc.withRm {rm : BitVec 3} {s : State} {k : Rm → State}
    (h : ∀ r, LeavesPc (Machine.finish (.done (k r)))) : LeavesPc (Machine.finish (withRm rm s.startIter k)) := by
  cases hr : s.startIter.resolveRm rm with
  | none => rw [withRm_none hr]; exact .finish rfl
  | some r => rw [withRm_some hr]; exact h r

theorem LeavesPc.loadX (w : Width) (ext : Word → Word) (rd rs1 : Reg) (imm : BitVec 12) (s : State) :
    LeavesPc (loadX w ext rd rs1 imm s) := by
  unfold Machine.loadX
  rcases memRead_cases s.startIter (s.effAddr rs1 imm) w with ⟨e, h⟩ | h <;> rw [h] <;>
    exact .finish (by simp [Behaviour.final])

theorem LeavesPc.flw (rd rs1 : Reg) (imm : BitVec 12) (s : State) : LeavesPc (execFlw rd rs1 imm s) := by
  unfold execFlw
  rcases memRead_cases s.startIter (s.effAddr rs1 imm) .word with ⟨e, h⟩ | h <;> rw [h] <;>
    exact .finish (by simp [Behaviour.final])

theorem LeavesPc.fld (rd rs1 : Reg) (imm : BitVec 12) (s : State) : LeavesPc (execFld rd rs1 imm s) := by
  unfold execFld State.read64
  cases s.startIter.accessFault64 .read (s.effAddr rs1 imm) <;> exact .finish (by simp [Behaviour.final])

theorem LeavesPc.storeAt (w : Width) (rs1 : Reg) (imm : BitVec 12) (v : Word) (s : State) :
    LeavesPc (storeAt w rs1 imm v s) := by
  unfold Machine.storeAt
  rcases memWrite_cases s.startIter (s.effAddr rs1 imm) w v with ⟨e, h⟩ | ⟨h, -, -⟩ <;> rw [h] <;>
    exact .finish (by simp [Behaviour.final])

theorem LeavesPc.fsd (rs1 rs2 : Reg) (imm : BitVec 12) (s : State) : LeavesPc (execFsd rs1 rs2 imm s) := by
  unfold execFsd State.write64
  cases s.startIter.accessFault64 .write (s.effAddr rs1 imm) <;> exact .finish (by simp [Behaviour.final])

theorem csrAccess_iter (rd : Reg) (n : CsrNum) (due : Bool) (new : Word → Word) (s : State) :
    (csrAccess rd n due new s).final.iter = s.iter := by
  unfold csrAccess
  split
  · rfl
  · split
    · rfl
    · cases due <;> simp [Behaviour.final]

theorem allocate_iter {s t : State} {n r : Word} (h : s.allocate n = some (r, t)) : t.iter = s.iter := by
  unfold State.allocate at h
  dsimp only at h
  split_ifs at h <;> cases h <;> simp

theorem sbrk_iter (s : State) : (sbrk s).final.iter = s.iter := by
  unfold sbrk
  split
  · rename_i r t ha
    simp [Behaviour.final, allocate_iter ha]
  · rfl

/-- A service the host does not supply leaves the iteration's variables as they are. -/
theorem runService_iter {sv : Service} (h : sv ≠ .hosted) (s : State) : (runService sv s).final.iter = s.iter := by
  cases sv with
  | sbrk => exact sbrk_iter s
  | exitZero | exitA0 => rfl
  | hosted => exact absurd rfl h

theorem LeavesPc.ecall {s : State} (h : serviceOf s.cfg.syscalls (s.readX 17) ≠ some .hosted) :
    LeavesPc (execEcall s) := by
  refine .finish ?_
  have hx : s.startIter.readX 17 = s.readX 17 := rfl
  rw [environmentCall, State.startIter_cfg, hx]
  cases hsv : serviceOf s.cfg.syscalls (s.readX 17) with
  | none => rfl
  | some sv => exact congrArg Iter.pcSet (runService_iter (fun hh => h (hsv.trans (congrArg some hh))) s.startIter)

/-- Settles O25: the shapes of the other instructions write no `pc`, and no end of a behaviour raises `pc_set`. -/
theorem whoSetsPc : Obligations.WhoSetsPc := by
  intro i s t hexec hset
  have hnot : ¬ LeavesPc (exec i s) := fun h => by simp [h t hexec] at hset
  cases i
  case jal rd off => exact .inl ⟨rd, off, rfl⟩
  case jalr rd rs1 imm => exact .inr (.inl ⟨rd, rs1, imm, rfl⟩)
  case uret => exact .inr (.inr (.inl rfl))
  case beq rs1 rs2 off | bne rs1 rs2 off | blt rs1 rs2 off | bge rs1 rs2 off | bltu rs1 rs2 off | bgeu rs1 rs2 off =>
    exact .inr (.inr (.inr (.inl ⟨rs1, rs2, off, by simp⟩)))
  case ecall => exact .inr (.inr (.inr (.inr ⟨rfl, by_contra fun h => hnot (.ecall h)⟩)))
  all_goals refine absurd ?_ hnot
  case fence | fenceI | wfi => exact .finish (b := .done s.startIter) rfl
  case ebreak => exact .finish (b := .done _) rfl
  case flw => exact .flw _ _ _ s
  case fld => exact .fld _ _ _ s
  case fsd => exact .fsd _ _ _ s
  case lb | lh | lw | lbu | lhu => exact .loadX _ _ _ _ _ s
  case sb | sh | sw | fsw => exact .storeAt _ _ _ _ s
  case csrrw | csrrs | csrrc | csrrwi | csrrsi | csrrci =>
    exact .finish (congrArg Iter.pcSet (csrAccess_iter _ _ _ _ s.startIter))
  case fmvWX | fsgnjS | fsgnjnS | fsgnjxS | fsgnjD | fsgnjnD | fsgnjxD => exact .writeF s _ _
  case fminS | fmaxS => exact .retireS s _ _
  case fminD | fmaxD => exact .retireD s _ _
  case feqS | fltS | fleS | feqD | fltD | fleD => exact .retireX s _ _
  case fmaddS | fmsubS | fnmsubS | fnmaddS | faddS | fsubS | fmulS | fdivS | fsqrtS | fcvtSW | fcvtSWu | fcvtSD =>
    exact .withRm fun _ => .retireS s _ _
  case fmaddD | fmsubD | fnmsubD | fnmaddD | faddD | fsubD | fmulD | fdivD | fsqrtD | fcvtDW | fcvtDWu | fcvtDS =>
    exact .withRm fun _ => .retireD s _ _
  case fcvtWS | fcvtWuS | fcvtWD | fcvtWuD => exact .withRm fun _ => .retireX s _ _
  all_goals exact .writesX s _ _

end Sys2Proof.Machine

/-! SUPPORT and PROOFS. The integer loads and stores (42_loadstore.md): what an access comes to where its segment permits
it, and the exception it takes where it does not. -/

namespace Sys2Proof.Machine

/-! ### Loaded values (R156, R165, R176) -/

/-- A byte put on top of the `n` bytes below it (R156). -/
theorem withByte_setWidth {n : Nat} (hn : n < 4) (x : BitVec (8 * n)) (b : Byte) :
    withByte (x.setWidth 32) n b = (b ++ x).setWidth 32 := by
  refine word_ext_bytes fun i hi => ?_
  rw [byteOf_withByte _ _ _ hn hi, byteOf, byteOf, BitVec.extractLsb'_setWidth_of_le (by omega),
    BitVec.extractLsb'_setWidth_of_le (by omega)]
  rcases Nat.lt_trichotomy i n with hbelow | rfl | habove
  · rw [if_neg hbelow.ne, BitVec.extractLsb'_append_eq_of_add_le (by omega)]
  · rw [if_pos rfl, BitVec.extractLsb'_append_eq_of_le le_rfl]
    simp
  · rw [if_neg habove.ne']
    ext k hk
    rw [BitVec.getElem_extractLsb', BitVec.getElem_extractLsb', BitVec.getLsbD_of_ge _ _ (by omega),
      BitVec.getLsbD_of_ge _ _ (by omega)]

theorem wordOf_one (g : Nat → Byte) : wordOf g 1 = (g 0).setWidth 32 :=
  (withByte_setWidth (n := 0) (by decide) 0#0 (g 0)).trans (congrArg _ (BitVec.append_zero_width ..))

theorem wordOf_two (g : Nat → Byte) : wordOf g 2 = (g 1 ++ g 0).setWidth 32 := by
  rw [wordOf, wordOf_one]
  exact withByte_setWidth (n := 1) (by decide) (g 0) (g 1)

theorem wordOf_four (g : Nat → Byte) : wordOf g 4 = g 3 ++ g 2 ++ g 1 ++ g 0 := by
  have hlow : wordOf g 3 = (g 2 ++ (g 1 ++ g 0)).setWidth 32 := by
    rw [wordOf, wordOf_two]
    exact withByte_setWidth (n := 2) (by decide) (g 1 ++ g 0) (g 2)
  have hall : wordOf g 4 = g 3 ++ (g 2 ++ (g 1 ++ g 0)) := by
    rw [wordOf, hlow]
    exact (withByte_setWidth (n := 3) (by decide) (g 2 ++ (g 1 ++ g 0)) (g 3)).trans (BitVec.setWidth_eq _)
  rw [hall, BitVec.append_assoc', BitVec.append_assoc']
  rfl

theorem setWidth_setWidth_self (v : BitVec n) (hn : n ≤ 32) : (v.setWidth 32).setWidth n = v :=
  (BitVec.setWidth_setWidth_of_le v hn).trans (BitVec.setWidth_eq v)

/-- A mask of the low bits cuts a word to them. -/
theorem and_lowBits (v : Word) {n : Nat} (hn : n ≤ 32) :
    v &&& BitVec.ofNat 32 (2 ^ n - 1) = (v.setWidth n).setWidth 32 := by
  have hpow : 2 ^ n ≤ 2 ^ 32 := Nat.pow_le_pow_right (by decide) hn
  have hmask : 2 ^ n - 1 < 2 ^ 32 := by omega
  apply BitVec.eq_of_toNat_eq
  rw [BitVec.toNat_and, BitVec.toNat_ofNat, Nat.mod_eq_of_lt hmask, Nat.and_two_pow_sub_one_eq_mod,
    BitVec.toNat_setWidth, BitVec.toNat_setWidth]
  exact (Nat.mod_eq_of_lt (by omega)).symm

theorem maskWidth_byte (v : Word) : maskWidth .byte v = (v.setWidth 8).setWidth 32 :=
  and_lowBits v (n := 8) (by decide)

theorem maskWidth_half (v : Word) : maskWidth .half v = (v.setWidth 16).setWidth 32 :=
  and_lowBits v (n := 16) (by decide)

section

variable (s : State) (ea : Word)

theorem State.loadedValue_byte : s.loadedValue ea .byte = (loadedByte s ea).setWidth 32 := by
  unfold State.loadedValue loadedByte
  split
  · exact maskWidth_byte _
  · simpa [State.rawRead, bytesOf] using wordOf_one fun i => s.byteAt (ea + BitVec.ofNat 32 i)

theorem State.loadedValue_half : s.loadedValue ea .half = (loadedHalf s ea).setWidth 32 := by
  unfold State.loadedValue loadedHalf
  split
  · exact maskWidth_half _
  · simpa [State.rawRead, bytesOf] using wordOf_two fun i => s.byteAt (ea + BitVec.ofNat 32 i)

theorem State.loadedValue_word : s.loadedValue ea .word = loadedWord s ea := by
  unfold State.loadedValue loadedWord
  split
  · rfl
  · simpa [State.rawRead, bytesOf] using wordOf_four fun i => s.byteAt (ea + BitVec.ofNat 32 i)

theorem sextByte_loadedValue : sextByte (s.loadedValue ea .byte) = (loadedByte s ea).signExtend 32 := by
  rw [State.loadedValue_byte, sextByte, setWidth_setWidth_self _ (by decide), sext]

theorem sextHalf_loadedValue : sextHalf (s.loadedValue ea .half) = (loadedHalf s ea).signExtend 32 := by
  rw [State.loadedValue_half, sextHalf, setWidth_setWidth_self _ (by decide), sext]

theorem maskWidth_byte_loadedValue :
    maskWidth .byte (s.loadedValue ea .byte) = (loadedByte s ea).setWidth 32 := by
  rw [State.loadedValue_byte, maskWidth_byte, setWidth_setWidth_self _ (by decide)]

theorem maskWidth_half_loadedValue :
    maskWidth .half (s.loadedValue ea .half) = (loadedHalf s ea).setWidth 32 := by
  rw [State.loadedValue_half, maskWidth_half, setWidth_setWidth_self _ (by decide)]

theorem State.afterRead_draws : (s.afterRead ea).draws = s.draws + loadDraws s ea := by
  unfold State.afterRead loadDraws
  split <;> rfl

end

/-! ### What a completed access leaves (R162, R165, R166, R623) -/

/-- A read, a general register written and the advance. -/
theorem afterRead_writeX_advance (s : State) (ea : Word) (rd : Reg) (v : Word) :
    SetsX s ((s.startIter.afterRead ea).writeX rd v).advance rd v 0 (s.pc + 4) (loadDraws s ea) where
  gpr r := by
    rw [State.readX_congr (s := (s.startIter.afterRead ea).writeX rd v) (by simp), State.readX_writeX,
      State.readX_congr (t := s.startIter.afterRead ea) (s := s) (by simp)]
  fpr r := State.readF_congr (by simp) r
  csr := by simp
  pc := by simp [State.advance_pc, State.startIter]
  memory := .of_eq (by simp) (by simp) (by simp)
  rest := by constructor <;> simp
  draws := by
    rw [State.advance_draws, State.writeX_draws]
    exact s.startIter.afterRead_draws ea
  completed := by constructor <;> simp [State.startIter]

/-- A write and the advance. -/
theorem rawWrite_advance {s : State} (hwf : Memory.wf s.mem = true) (ea v : Word) (w : Width) :
    Stores s (s.startIter.rawWrite ea w v).advance ea (bytesOf w) (byteOf v) := by
  have hkeys : keysRise s.startIter.mem = true := Memory.wf_keysRise hwf
  have hbytes (b : Word) : (s.startIter.rawWrite ea w v).advance.byteAt b =
      if (b - ea).toNat < bytesOf w then byteOf v (b - ea).toNat else s.byteAt b :=
    (State.byteAt_of_eq (by simp) (by simp) (by simp) b).trans (State.byteAt_rawWrite hkeys ea v b w)
  obtain ⟨hpresent, hother⟩ := s.startIter.rawWrite_text ea v w
  constructor
  case inside => exact fun b hb => (hbytes b).trans (if_pos hb)
  case outside => exact fun b hb => (hbytes b).trans (if_neg hb)
  case present => simpa using hpresent
  case otherText => simpa using hother
  case gpr => exact fun r => State.readX_congr (by simp) r
  case fpr => exact fun r => State.readF_congr (by simp) r
  case csr => simp
  case pc => simp [State.advance_pc, State.startIter]
  case rest => constructor <;> simp
  case draws => simp
  case completed => constructor <;> simp [State.startIter]

/-- The advance takes no output back. -/
theorem State.mem_outputs_advance {s : State} {o : Output} (h : o ∈ s.outputs) : o ∈ s.advance.outputs := by
  unfold State.advance State.writePc State.emit
  split_ifs <;> simp [h]

/-- A write that changes something is notified (R171; log 12). -/
theorem State.memChanged_mem_outputs_rawWrite {s : State} {ea v : Word} {w : Width}
    (h : s.storeChanges ea w v = true) :
    Output.memChanged ea w (maskWidth w v) ∈ (s.rawWrite ea w v).outputs := by
  rw [State.rawWrite, if_pos h]
  exact List.mem_cons_self

/-! ### Instructions that come to a load or a store (R380-R383) -/

/-- An exception raised at the start of an instruction leaves the instruction's own address as the saved pc. -/
theorem traps_of_raise {i : Instr} {s : State} {e : Exc} (hexec : exec i s = finish (.raise e s.startIter))
    (hidle : SyncIdle s) : Traps i s e := by
  have hspec : Trapped s.startIter (s.startIter.trapped e) e s.pc := s.startIter.trapped_spec e
  exact ⟨_, hexec.trans (takeException_of_syncIdle (s := s.startIter) hidle e),
    { hspec with memory := { hspec.memory with } }⟩

section

variable {i : Instr} {s : State} (w : Width) {rs1 : Reg} {imm : BitVec 12}

theorem runs_of_loadX {ext : Word → Word} {rd : Reg} {v : Word} (hexec : exec i s = loadX w ext rd rs1 imm s)
    (haligned : (s.effAddr rs1 imm).toNat % bytesOf w = 0) (hp : permits s.cfg (s.effAddr rs1 imm) .read = true)
    (hv : ext (s.loadedValue (s.effAddr rs1 imm) w) = v) :
    Runs i s (fun t => SetsX s t rd v 0 (s.pc + 4) (loadDraws s (s.effAddr rs1 imm))) := by
  refine ⟨_, ?_, afterRead_writeX_advance s (s.effAddr rs1 imm) rd v⟩
  rw [hexec, loadX, s.startIter.memRead_of_no_fault (s.startIter.accessFault_of_permitted haligned hp), ← hv]
  rfl

theorem traps_of_loadX {ext : Word → Word} {rd : Reg} {e : Exc} (hexec : exec i s = loadX w ext rd rs1 imm s)
    (hidle : SyncIdle s) (hfault : s.accessFault .read (s.effAddr rs1 imm) w = some e) : Traps i s e := by
  refine traps_of_raise ?_ hidle
  rw [hexec, loadX, s.startIter.memRead_of_fault hfault]

theorem runs_of_storeAt {v : Word} (hexec : exec i s = storeAt w rs1 imm v s) (hwf : Memory.wf s.mem = true)
    (haligned : (s.effAddr rs1 imm).toNat % bytesOf w = 0) (hp : permits s.cfg (s.effAddr rs1 imm) .write = true) :
    Runs i s (fun t => Stores s t (s.effAddr rs1 imm) (bytesOf w) (byteOf v) ∧
      (s.storeChanges (s.effAddr rs1 imm) w v = true →
        Output.memChanged (s.effAddr rs1 imm) w (maskWidth w v) ∈ t.outputs)) := by
  refine ⟨_, ?_, rawWrite_advance hwf _ v w, fun hchanges =>
    State.mem_outputs_advance (State.memChanged_mem_outputs_rawWrite (s := s.startIter) hchanges)⟩
  rw [hexec, storeAt, s.startIter.memWrite_of_no_fault (s.startIter.accessFault_of_permitted haligned hp)]
  rfl

theorem traps_of_storeAt {v : Word} {e : Exc} (hexec : exec i s = storeAt w rs1 imm v s) (hidle : SyncIdle s)
    (hfault : s.accessFault .write (s.effAddr rs1 imm) w = some e) : Traps i s e := by
  refine traps_of_raise ?_ hidle
  rw [hexec, storeAt, s.startIter.memWrite_of_fault hfault]

end

/-! ### The integer loads and stores (R384-R391) -/

/-- Settles O26: each encoding is a row of the table, and each instruction comes to a load of its width, whose fault
decides whether it completes. -/
theorem loadResults : Obligations.LoadResults := by
  refine ⟨⟨encodes_of_row .lb, encodes_of_row .lh, encodes_of_row .lw, encodes_of_row .lbu, encodes_of_row .lhu⟩, ?_⟩
  intro s rd rs1 imm ea next n
  refine ⟨fun hp => ?permitted, fun hidle => ⟨fun h => ?misalignedHalf, fun h => ?misalignedWord, fun hp => ?denied⟩⟩
  case permitted =>
    refine ⟨?lb, ?lbu, fun h => ⟨?lh, ?lhu⟩, fun h => ?lw⟩
    case lb => exact runs_of_loadX .byte rfl (Nat.mod_one _) hp (sextByte_loadedValue s ea)
    case lbu => exact runs_of_loadX .byte rfl (Nat.mod_one _) hp (maskWidth_byte_loadedValue s ea)
    case lh => exact runs_of_loadX .half rfl h hp (sextHalf_loadedValue s ea)
    case lhu => exact runs_of_loadX .half rfl h hp (maskWidth_half_loadedValue s ea)
    case lw => exact runs_of_loadX .word rfl h hp (s.loadedValue_word ea)
  case misalignedHalf =>
    have hfault := s.accessFault_of_misaligned (w := .half) (k := .read) h
    exact ⟨traps_of_loadX .half rfl hidle hfault, traps_of_loadX .half rfl hidle hfault⟩
  case misalignedWord => exact traps_of_loadX .word rfl hidle (s.accessFault_of_misaligned h)
  case denied =>
    have hfault {w : Width} (h : ea.toNat % bytesOf w = 0) := s.accessFault_of_denied h hp
    have hbyte := hfault (w := .byte) (Nat.mod_one _)
    exact ⟨traps_of_loadX .byte rfl hidle hbyte, traps_of_loadX .byte rfl hidle hbyte,
      fun h => ⟨traps_of_loadX .half rfl hidle (hfault h), traps_of_loadX .half rfl hidle (hfault h)⟩,
      fun h => traps_of_loadX .word rfl hidle (hfault h)⟩

/-- Settles O27: as for the loads, with a store of the instruction's width. -/
theorem storeResults : Obligations.StoreResults := by
  refine ⟨⟨encodes_of_row .sb, encodes_of_row .sh, encodes_of_row .sw⟩, ?_⟩
  intro s rs1 rs2 imm ea v bytes notified
  refine ⟨fun hwf hp => ?permitted, fun hidle =>
    ⟨fun h => ?misalignedHalf, fun h => ?misalignedWord, fun hp => ?denied⟩⟩
  case permitted =>
    exact ⟨runs_of_storeAt .byte rfl hwf (Nat.mod_one _) hp, fun h => runs_of_storeAt .half rfl hwf h hp,
      fun h => runs_of_storeAt .word rfl hwf h hp⟩
  case misalignedHalf => exact traps_of_storeAt .half rfl hidle (s.accessFault_of_misaligned h)
  case misalignedWord => exact traps_of_storeAt .word rfl hidle (s.accessFault_of_misaligned h)
  case denied =>
    have hfault {w : Width} (h : ea.toNat % bytesOf w = 0) := s.accessFault_of_denied h hp
    exact ⟨traps_of_storeAt .byte rfl hidle (hfault (Nat.mod_one _)),
      fun h => traps_of_storeAt .half rfl hidle (hfault h), fun h => traps_of_storeAt .word rfl hidle (hfault h)⟩

end Sys2Proof.Machine

/-! SUPPORT and PROOFS. Integer multiply and divide (43_muldiv.md): a product's high word as a quotient by 2^32, the
divisions as integer division cut to a word, and quotient and remainder together. -/

namespace Sys2Proof.Machine

/-! ### Products (R402-R405) -/

theorem ofInt_toInt_mul (x y : Word) : BitVec.ofInt 32 (x.toInt * y.toInt) = x * y := by
  rw [BitVec.ofInt_mul, BitVec.ofInt_toInt, BitVec.ofInt_toInt]

/-- Bits 63:32 of a product are its quotient by 2^32, rounded down. -/
theorem highWord_eq_ofInt (p : Int) : highWord p = BitVec.ofInt 32 (p / 2 ^ 32) := by
  apply BitVec.eq_of_toNat_eq
  simp only [highWord, BitVec.extractLsb'_toNat, BitVec.toNat_ofInt, Nat.shiftRight_eq_div_pow]
  omega

/-! ### Divisors read as integers -/

theorem toInt_eq_zero_iff {b : Word} : b.toInt = 0 ↔ b = 0 := by
  rw [← BitVec.toInt_inj, BitVec.ofNat_eq_ofNat, BitVec.toInt_zero]

theorem toNat_eq_zero_iff {b : Word} : b.toNat = 0 ↔ b = 0 := by
  rw [← BitVec.toNat_inj, BitVec.ofNat_eq_ofNat, BitVec.toNat_zero]

/-- Only two words stand in signed overflow: -2^31 and -1 (R401). -/
theorem signedOverflow_iff {a b : Word} :
    a.toInt = -(2 ^ 31) ∧ b.toInt = -1 ↔ a = 0x80000000 ∧ b = 0xFFFFFFFF := by
  rw [← BitVec.toInt_inj, ← BitVec.toInt_inj]
  exact Iff.rfl

/-! ### The divisions as the library's -/

theorem divUnsigned_eq_udiv (a : Word) {b : Word} (hb : b ≠ 0) : divUnsigned a b = a / b := by
  rw [divUnsigned, if_neg hb, ← BitVec.udiv_def]

theorem remUnsigned_eq_umod (a b : Word) : remUnsigned a b = a % b := by
  rw [remUnsigned, ← BitVec.umod_def, ite_eq_right_iff]
  rintro rfl
  exact BitVec.umod_zero.symm

/-- The quotient is the exact one cut to a word; that is R401's result of the overflow too. -/
theorem divSigned_eq_ofInt (a : Word) {b : Word} (hb : b ≠ 0) :
    divSigned a b = BitVec.ofInt 32 (a.toInt.tdiv b.toInt) := by
  rw [divSigned, if_neg hb, ite_eq_right_iff, signedOverflow_iff]
  rintro ⟨rfl, rfl⟩
  rfl

/-- The remainder is the exact one of every pair, in R401's two corners too. -/
theorem remSigned_eq_srem (a b : Word) : remSigned a b = a.srem b := by
  rw [remSigned, ← Int.tmod_def, ← BitVec.toInt_srem, BitVec.ofInt_toInt]
  split
  case isTrue hb => rw [hb]; exact BitVec.srem_zero.symm
  case isFalse =>
    rw [ite_eq_right_iff, signedOverflow_iff]
    rintro ⟨rfl, rfl⟩
    rfl

theorem toInt_remSigned (a b : Word) : (remSigned a b).toInt = a.toInt.tmod b.toInt := by
  rw [remSigned_eq_srem, BitVec.toInt_srem]

/-! ### Quotient and remainder together (R408) -/

theorem mul_divSigned_add_remSigned (a b : Word) : b * divSigned a b + remSigned a b = a := by
  by_cases hb : b = 0
  case pos => simp [remSigned, hb]
  case neg =>
    calc b * divSigned a b + remSigned a b
        = BitVec.ofInt 32 b.toInt * BitVec.ofInt 32 (a.toInt.tdiv b.toInt) +
            BitVec.ofInt 32 (remSigned a b).toInt := by
          rw [divSigned_eq_ofInt a hb, BitVec.ofInt_toInt, BitVec.ofInt_toInt]
      _ = BitVec.ofInt 32 (b.toInt * a.toInt.tdiv b.toInt + a.toInt.tmod b.toInt) := by
          rw [toInt_remSigned, BitVec.ofInt_add, BitVec.ofInt_mul]
      _ = a := by rw [Int.mul_tdiv_add_tmod, BitVec.ofInt_toInt]

theorem mul_divUnsigned_add_remUnsigned (a b : Word) : b * divUnsigned a b + remUnsigned a b = a := by
  by_cases hb : b = 0
  case pos => simp [remUnsigned, hb]
  case neg =>
    apply BitVec.eq_of_toNat_eq
    rw [divUnsigned_eq_udiv a hb, remUnsigned_eq_umod, BitVec.toNat_add, BitVec.toNat_mul, BitVec.toNat_udiv,
      BitVec.toNat_umod, Nat.mod_add_mod, Nat.div_add_mod, Nat.mod_eq_of_lt a.isLt]

theorem toNat_remUnsigned_lt (a : Word) {b : Word} (hb : b ≠ 0) : (remUnsigned a b).toNat < b.toNat := by
  rw [remUnsigned_eq_umod, BitVec.toNat_umod]
  exact Nat.mod_lt _ (Nat.pos_of_ne_zero (mt toNat_eq_zero_iff.mp hb))

theorem natAbs_toInt_remSigned_lt (a : Word) {b : Word} (hb : b ≠ 0) :
    (remSigned a b).toInt.natAbs < b.toInt.natAbs := by
  rw [toInt_remSigned, Int.natAbs_tmod]
  exact Nat.mod_lt _ (Int.natAbs_pos.mpr (mt toInt_eq_zero_iff.mp hb))

/-- A remainder that is not zero has the dividend's sign. -/
theorem toInt_remSigned_neg_iff {a b : Word} (h : (remSigned a b).toInt ≠ 0) :
    (remSigned a b).toInt < 0 ↔ a.toInt < 0 := by
  rw [toInt_remSigned] at h ⊢
  have hsign : (a.toInt.tmod b.toInt).sign = a.toInt.sign := by
    rw [Int.sign_tmod, if_neg (mt Int.dvd_iff_tmod_eq_zero.mp h)]
  rw [← Int.sign_eq_neg_one_iff_neg, hsign, Int.sign_eq_neg_one_iff_neg]

/-! ### The multiply and divide instructions (R400-R409) -/

/-- Settles O21: each encoding is a row of the table, and each instruction writes the rule's result into `rd`. -/
theorem mulDivResults : Obligations.MulDivResults := by
  refine ⟨⟨encodes_of_row .mul, encodes_of_row .mulh, encodes_of_row .mulhsu, encodes_of_row .mulhu,
    encodes_of_row .div, encodes_of_row .divu, encodes_of_row .rem, encodes_of_row .remu⟩, ?_⟩
  intro s rd rs1 rs2 x y sx sy ux uy next
  have hsy : sy = 0 ↔ y = 0 := toInt_eq_zero_iff
  have huy : uy = 0 ↔ y = 0 := Int.natCast_eq_zero.trans toNat_eq_zero_iff
  simp only [hsy, huy]
  refine ⟨?mul, ?mulh, ?mulhsu, ?mulhu, ?div, ?divu, ?rem, ?remu⟩
  case mul => exact runs_of_writesX rfl (ofInt_toInt_mul x y)
  case mulh | mulhsu | mulhu => exact runs_of_writesX rfl (highWord_eq_ofInt _)
  case div | rem => exact runs_of_writesX rfl rfl
  -- The integers' quotient and remainder of two naturals are the naturals' by definition.
  case divu | remu => exact runs_of_writesX rfl rfl

/-- Settles O22: the remainders are the library's, and each quotient is the exact one cut to a word. -/
theorem quotientAndRemainder : Obligations.QuotientAndRemainder := fun a b =>
  ⟨(mul_divSigned_add_remSigned a b).symm, (mul_divUnsigned_add_remUnsigned a b).symm,
    fun hb => ⟨toNat_remUnsigned_lt a hb, natAbs_toInt_remSigned_lt a hb⟩, toInt_remSigned_neg_iff⟩

end Sys2Proof.Machine

/-! SUPPORT and PROOFS. The system family (44_system.md): the trap return, the environment call and the CSR
instructions, each shape with what it leaves. -/

namespace Sys2Proof.Machine

/-! ### The breakpoint and the trap return (R425, R426) -/

/-- The breakpoint flag raised and the advance. -/
theorem breakpoint_advance (s : State) :
    Goes s { s.startIter with iter := { s.startIter.iter with breakpointHit := true } }.advance (s.pc + 4) true where
  gpr r := State.readX_congr (by simp) r
  fpr r := State.readF_congr (by simp) r
  csr := by simp
  pc := by simp [State.advance_pc, State.startIter]
  memory := .of_eq (by simp) (by simp) (by simp)
  rest := by constructor <;> simp
  draws := by simp
  raised := by simp [State.startIter]
  breakpointHit := by simp

/-- The `ustatus` a trap return writes: UIE takes UPIE, and UPIE is set (R426). -/
theorem returnStatus_eq (a : Word) : (a &&& ~~~(0x11 : Word)) ||| ((a >>> 4) &&& 1) ||| 0x10 =
    (a &&& ~~~(0x11 : Word)) ||| ((if a.getLsbD 4 then 0x11 else 0x10) &&& 0x11) := by
  have hupie : (a >>> 4) &&& 1 = if a.getLsbD 4 then 1 else 0 := by
    have h := BitVec.and_one_eq_setWidth_ofBool_getLsbD (x := a >>> 4)
    rw [BitVec.getLsbD_ushiftRight] at h
    refine h.trans ?_
    cases a.getLsbD (4 + 0) <;> rfl
  rw [hupie, BitVec.or_assoc]
  cases a.getLsbD 4 <;> rfl

/-- The bank a trap return leaves (R426). -/
theorem State.returnFromTrap_csr (s : State) : s.returnFromTrap.csr = { s.csr with ustatus :=
    (s.csr.ustatus &&& ~~~(0x11 : Word)) ||| (if s.csr.ustatus.getLsbD 4 then 0x11 else 0x10) } := by
  have hmask : ((if s.csr.ustatus.getLsbD 4 then 0x11 else 0x10) &&& 0x11 : Word) =
      if s.csr.ustatus.getLsbD 4 then 0x11 else 0x10 := by
    cases s.csr.ustatus.getLsbD 4 <;> rfl
  simp only [State.returnFromTrap, State.jumpTo_csr, State.csrWrite_csr, State.csrRead_eq, csrWritten, csrShown,
    Csrs.get]
  rw [returnStatus_eq, masked_and_same, hmask]

theorem State.returnFromTrap_pc (s : State) : s.returnFromTrap.pc = s.csr.uepc := by
  simp [State.returnFromTrap, State.csrRead_eq, State.csrWrite_csr, csrWritten, csrShown, Csrs.get]

theorem State.returnFromTrap_iter (s : State) : s.returnFromTrap.iter = { s.iter with pcSet := true } := by
  simp [State.returnFromTrap]

/-- A trap return: but for `ustatus`, only `pc` changes. -/
theorem returnFromTrap_advance (s : State) : Goes { s with csr := s.startIter.returnFromTrap.advance.csr }
    s.startIter.returnFromTrap.advance s.csr.uepc false where
  gpr r := State.readX_congr (by simp) r
  fpr r := State.readF_congr (by simp) r
  csr := rfl
  pc := by simp [State.advance_pc, State.returnFromTrap_iter, State.returnFromTrap_pc]
  memory := .of_eq (by simp) (by simp) (by simp)
  rest := by constructor <;> simp
  draws := by simp
  raised := by simp [State.returnFromTrap_iter, State.startIter]
  breakpointHit := by simp [State.returnFromTrap_iter, State.startIter]

/-- Settles O30: each encoding is a row of the table; the fences and `wfi` come to the advance alone. -/
theorem systemResults : Obligations.SystemResults := by
  refine ⟨⟨encodes_of_row .fence, encodes_of_row .fenceI, encodes_of_row .ebreak, encodes_of_row .uret,
    encodes_of_row .wfi⟩, ?_⟩
  intro s pred succ
  refine ⟨?fence, ?fenceI, ?wfi, ?ebreak, ?uret⟩
  case fence | fenceI | wfi => exact ⟨_, rfl, startIter_advance s⟩
  case ebreak => exact ⟨_, rfl, breakpoint_advance s⟩
  case uret =>
    refine ⟨_, rfl, ?_, by simp [State.returnFromTrap_iter], returnFromTrap_advance s⟩
    simp [State.returnFromTrap_csr]

/-! ### Services (R424) -/

/-- The first row of a number decides. -/
theorem serviceOf_cons (key : Word) (sv : Service) (table : List (Word × Service)) (n : Word) :
    serviceOf ((key, sv) :: table) n = if n = key then some sv else serviceOf table n := by
  by_cases h : n = key
  · simp [serviceOf, h]
  · simp [serviceOf, h, Ne.symm h]

/-- The table of the reference services. -/
theorem serviceOf_reference (n : Word) : serviceOf Config.reference.syscalls n =
    if n = 9 then some .sbrk else if n = 10 then some .exitZero
    else if n = 17 ∨ n = 93 then some .exitA0 else none := by
  simp only [Config.reference, serviceOf_cons, ite_or]
  rfl

section

variable {s : State}

/-- The environment call runs the service of its number. -/
theorem exec_ecall_of_service {sv : Service} (h : serviceOf s.cfg.syscalls (s.readX 17) = some sv) :
    exec .ecall s = finish (runService sv s.startIter) := by
  have hstart : serviceOf s.startIter.cfg.syscalls (s.startIter.readX 17) = some sv := h
  exact congrArg finish (by rw [environmentCall, hstart])

/-- A number that is no service raises. -/
theorem exec_ecall_of_none (h : serviceOf s.cfg.syscalls (s.readX 17) = none) :
    exec .ecall s = finish (.raise (.environmentCallFault (s.readX 17)) s.startIter) := by
  have hstart : serviceOf s.startIter.cfg.syscalls (s.startIter.readX 17) = none := h
  refine congrArg finish ?_
  rw [environmentCall, hstart]
  rfl

/-! ### Exits (R641) -/

theorem startIter_stop_exits (s : State) (code : Word) : Exits s (s.startIter.stop (.exit code)) code where
  driver := rfl
  gpr r := State.readX_congr (by simp) r
  fpr r := State.readF_congr (by simp) r
  csr := by simp
  pc := by simp
  memory := .of_eq (by simp) (by simp) (by simp)
  acc := by simp
  ctl := by simp
  counts := by simp
  kept := by simp

/-- An instruction that comes to an exit. -/
theorem runs_of_exit {i : Instr} {code : Word} (hexec : exec i s = finish (.exit code s.startIter)) :
    Runs i s (fun t => Exits s t code) := ⟨_, hexec, startIter_stop_exits s code⟩

/-! ### The heap service (R180, R424) -/

/-- An allocation fails where the request is negative or the new top is above the limit, and nowhere else. -/
theorem State.allocate_eq_none_iff (s : State) {n : Word} :
    s.allocate n = none ↔ n.toInt < 0 ∨ s.cfg.heapLimit < roundUp4 (s.heapTop + n.toNat) := by
  refine ⟨fun hnone => ?_, fun h => h.elim s.allocate_of_negative s.allocate_of_above_limit⟩
  by_contra h
  obtain ⟨hn, hfits⟩ := not_or.mp h
  obtain ⟨ring, hsome⟩ := s.allocate_of_fits (not_lt.mp hn) (not_lt.mp hfits)
  simp [hsome] at hnone

/-- The start of an iteration changes nothing an allocation looks at. -/
theorem allocate_startIter_eq_none_iff {n : Word} : s.startIter.allocate n = none ↔ s.allocate n = none :=
  s.startIter.allocate_eq_none_iff.trans s.allocate_eq_none_iff.symm

/-- An allocation that succeeds returns the old top and moves the top, also where the ring's entries differ. -/
theorem allocate_startIter_of_some {n r : Word} {u : State} (h : s.allocate n = some (r, u)) :
    r = BitVec.ofNat 32 s.heapTop ∧
      ∃ ring, s.startIter.allocate n = some (r, { s.startIter with heapTop := u.heapTop, ring := ring }) := by
  have hsome : ¬ (n.toInt < 0 ∨ s.cfg.heapLimit < roundUp4 (s.heapTop + n.toNat)) := by
    rw [← s.allocate_eq_none_iff, h]
    nofun
  obtain ⟨hn, hfits⟩ := not_or.mp hsome
  obtain ⟨ring, hu⟩ := s.allocate_of_fits (not_lt.mp hn) (not_lt.mp hfits)
  obtain ⟨ring', hstart⟩ := s.startIter.allocate_of_fits (not_lt.mp hn) (not_lt.mp hfits)
  obtain ⟨rfl, rfl⟩ : BitVec.ofNat 32 s.heapTop = r ∧ _ = u := by simpa [hu] using h
  exact ⟨rfl, ring', hstart⟩

/-- A heap top moved, a general register written and the advance: the register's rule, over the moved top. -/
theorem heapTop_writeX_advance (s : State) (top : Nat) (ring : List BackEntry) (rd : Reg) (v : Word) :
    SetsX { s with heapTop := top } ({ s.startIter with heapTop := top, ring := ring }.writeX rd v).advance rd v 0
      (s.pc + 4) 0 := by
  have hsets := writeX_advance { s with heapTop := top, ring := ring } rd v
  exact { hsets with memory := { hsets.memory with }, rest := { hsets.rest with } }

theorem sbrk_of_none (h : s.allocate (s.readX 10) = none) : sbrk s = .exit 1 s := by
  rw [sbrk, h]

theorem sbrk_of_some {r : Word} {t : State} (h : s.allocate (s.readX 10) = some (r, t)) :
    sbrk s = .done (t.writeX 10 r) := by
  rw [sbrk, h]

end

/-- Settles O31: the number decides between the trap, the two exits and the heap service. -/
theorem environmentCalls : Obligations.EnvironmentCalls := by
  refine ⟨encodes_of_row .ecall, serviceOf_reference, fun s => ⟨fun h hidle => ?fault, fun h => ?exitZero,
    fun h => ?exitA0, fun h hnone => ?fails, fun h r u hsome => ?sbrk⟩⟩
  case fault => exact traps_of_raise (exec_ecall_of_none h) hidle
  case exitZero | exitA0 => exact runs_of_exit (exec_ecall_of_service h)
  case fails =>
    have hexit := sbrk_of_none (s := s.startIter) (allocate_startIter_eq_none_iff.mpr hnone)
    exact runs_of_exit ((exec_ecall_of_service h).trans (congrArg finish hexit))
  case sbrk =>
    obtain ⟨hr, ring, hstart⟩ := allocate_startIter_of_some hsome
    have hdone := sbrk_of_some (s := s.startIter) hstart
    have hsets := heapTop_writeX_advance s u.heapTop ring 10 r
    have htop := hsets.rest.heapTop
    refine ⟨_, (exec_ecall_of_service h).trans (congrArg finish hdone), htop, hr, ?_⟩
    rw [htop]
    exact hsets

/-! ### The CSR instructions (R428-R435) -/

theorem csrOfNumber_eq_none_iff (n : CsrNum) : csrOfNumber n = none ↔ ∀ c : Csr, c.number ≠ n := by
  simp [Option.eq_none_iff_forall_ne_some, csrOfNumber_eq_some_iff]

section

variable {i : Instr} {s : State} {rd : Reg} {new : Word → Word}

/-- A register's old value in `rd`, with no write due: the rule of a written general register. -/
theorem SetsX.csrAccess {t : State} {c : Csr} (h : SetsX s t rd (csrShown s.csr c) 0 (s.pc + 4) 0) :
    CsrAccess s t rd c none :=
  { h with csr := by simpa using h.csr }

/-- A register written, its old value in `rd`, and the advance. -/
theorem csrWrite_writeX_advance (s : State) (rd : Reg) (c : Csr) (v : Word) :
    CsrAccess s ((s.startIter.csrWrite c v).writeX rd (csrShown s.csr c)).advance rd c (some v) where
  gpr r := by
    rw [State.readX_congr (s := (s.startIter.csrWrite c v).writeX rd (csrShown s.csr c)) (by simp), State.readX_writeX,
      State.readX_congr (t := s.startIter.csrWrite c v) (s := s) (by simp)]
  csr := by simp [State.csrWrite_csr]
  fpr r := State.readF_congr (by simp) r
  pc := by simp [State.advance_pc, State.startIter]
  memory := .of_eq (by simp) (by simp) (by simp)
  rest := by constructor <;> simp
  draws := by simp
  completed := by constructor <;> simp [State.startIter]

/-- An instruction that comes to a CSR access with a write due; `hv` says what the written word is. -/
theorem runs_of_csrWrite {c : Csr} {due : Bool} {v : Word}
    (hexec : exec i s = finish (csrAccess rd c.number due new s.startIter)) (hdue : due = true)
    (hc : c.isReadOnly = false) (hv : new (csrShown s.csr c) = v) : Runs i s (fun t => CsrAccess s t rd c (some v)) := by
  subst hv
  refine ⟨_, hexec.trans ?_, csrWrite_writeX_advance s rd c _⟩
  simp [csrAccess, (csrOfNumber_eq_some_iff _ c).mpr rfl, hdue, hc, State.csrRead_eq, finish_done]

/-- An instruction that comes to a CSR access with no write due. -/
theorem runs_of_csrRead {c : Csr} {due : Bool} (hexec : exec i s = finish (csrAccess rd c.number due new s.startIter))
    (hdue : due = false) : Runs i s (fun t => CsrAccess s t rd c none) := by
  refine ⟨_, hexec.trans ?_, (writeX_advance s rd (csrShown s.csr c)).csrAccess⟩
  simp [csrAccess, (csrOfNumber_eq_some_iff _ c).mpr rfl, hdue, State.csrRead_eq, finish_done]

/-- A CSR access to an absent register, or with a write due to a read-only one, raises. -/
theorem csrAccess_raises {n : CsrNum} {due : Bool}
    (h : (∀ c : Csr, c.number ≠ n) ∨ (∃ c : Csr, c.number = n ∧ c.isReadOnly = true) ∧ due = true) :
    csrAccess rd n due new s = .raise (.illegalInstruction s.fetchedWord) s := by
  rcases h with habsent | ⟨⟨c, rfl, hc⟩, hdue⟩
  · simp [csrAccess, (csrOfNumber_eq_none_iff n).mpr habsent]
  · simp [csrAccess, (csrOfNumber_eq_some_iff _ c).mpr rfl, hdue, hc]

/-- An instruction that comes to such an access reports the fetched word (R601). -/
theorem traps_of_csrAccess {n : CsrNum} {due : Bool} {w : Word}
    (hexec : exec i s = finish (csrAccess rd n due new s.startIter)) (hidle : SyncIdle s) (hw : StatementAt s w)
    (h : (∀ c : Csr, c.number ≠ n) ∨ (∃ c : Csr, c.number = n ∧ c.isReadOnly = true) ∧ due = true) :
    Traps i s (.illegalInstruction w) := by
  rw [csrAccess_raises h, fetchedWord_startIter hw] at hexec
  exact traps_of_raise hexec hidle

end

/-- Settles O32: each encoding is a row of the table, and each instruction comes to a CSR access, whose write is due
where the field is not 0, and for the plain writes always. -/
theorem csrResults : Obligations.CsrResults := by
  refine ⟨⟨encodes_of_row .csrrw, encodes_of_row .csrrs, encodes_of_row .csrrc, encodes_of_row .csrrwi,
    encodes_of_row .csrrsi, encodes_of_row .csrrci⟩, ?accesses, ?traps⟩
  case accesses =>
    intro s rd rs1 uimm c n x u old
    refine ⟨fun hc => ?write, fun h0 hc => ?setClear, fun h0 => ?read, fun h0 hc => ?setClearImm, fun h0 => ?readImm⟩
    case write => exact ⟨runs_of_csrWrite rfl rfl hc rfl, runs_of_csrWrite rfl rfl hc rfl⟩
    case setClear =>
      have hdue : (rs1 != 0) = true := bne_iff_ne.mpr h0
      exact ⟨runs_of_csrWrite rfl hdue hc rfl, runs_of_csrWrite rfl hdue hc rfl⟩
    case read =>
      have hdue : (rs1 != 0) = false := bne_eq_false_iff_eq.mpr h0
      exact ⟨runs_of_csrRead rfl hdue, runs_of_csrRead rfl hdue⟩
    case setClearImm =>
      have hdue : (uimm != 0) = true := bne_iff_ne.mpr h0
      exact ⟨runs_of_csrWrite rfl hdue hc rfl, runs_of_csrWrite rfl hdue hc rfl⟩
    case readImm =>
      have hdue : (uimm != 0) = false := bne_eq_false_iff_eq.mpr h0
      exact ⟨runs_of_csrRead rfl hdue, runs_of_csrRead rfl hdue⟩
  case traps =>
    intro s rd rs1 uimm n w hidle hw traps absent readOnly
    refine ⟨fun h => ?write, fun h => ?field, fun h => ?immediate⟩
    case write =>
      have h' := h.imp_right fun hro => (⟨hro, rfl⟩ : readOnly ∧ true = true)
      exact ⟨traps_of_csrAccess rfl hidle hw h', traps_of_csrAccess rfl hidle hw h'⟩
    case field =>
      have h' := h.imp_right (And.imp_right (bne_iff_ne (a := rs1) (b := 0)).mpr)
      exact ⟨traps_of_csrAccess rfl hidle hw h', traps_of_csrAccess rfl hidle hw h'⟩
    case immediate =>
      have h' := h.imp_right (And.imp_right (bne_iff_ne (a := uimm) (b := 0)).mpr)
      exact ⟨traps_of_csrAccess rfl hidle hw h', traps_of_csrAccess rfl hidle hw h'⟩

end Sys2Proof.Machine

/-! SUPPORT and PROOFS. The patterns of a format (45_float_single.md R490-R492, R496-R498): a pattern is a sign and a
magnitude; the values of the finite magnitudes rise strictly; comparisons, minimum and maximum, and the class mask. -/

namespace Sys2Proof.Machine

/-! ### Sign and magnitude (R491) -/

/-- The bits below the sign. -/
def magOf (f : Fmt) (b : BitVec f.width) : Nat := b.toNat % 2 ^ (f.width - 1)

namespace Fmt

variable (f : Fmt)

theorem two_pow_width : 2 ^ f.width = 2 * 2 ^ (f.width - 1) := by cases f <;> rfl

theorem two_pow_magnitude : 2 ^ (f.width - 1) = 2 ^ (f.prec - 1) * 2 ^ f.expBits := by cases f <;> rfl

theorem two_pow_prec : 2 ^ f.prec = 2 * 2 ^ (f.prec - 1) := by cases f <;> rfl

theorem two_pow_fraction : 2 ^ (f.prec - 1) = 2 * 2 ^ (f.prec - 2) := by cases f <;> rfl

theorem two_pow_expBits : 2 ^ f.expBits = 2 * f.bias + 2 := by cases f <;> rfl

theorem infBits_eq : f.infBits = (2 * f.bias + 1) * 2 ^ (f.prec - 1) := by cases f <;> rfl

theorem infBits_add_fraction : f.infBits + 2 ^ (f.prec - 1) = 2 ^ (f.width - 1) := by cases f <;> rfl

theorem even_infBits : f.infBits % 2 = 0 := by cases f <;> rfl

theorem infBits_lt : f.infBits < 2 ^ (f.width - 1) := by cases f <;> decide

theorem infBits_pos : 0 < f.infBits := by cases f <;> decide

end Fmt

section

variable (f : Fmt) (b : BitVec f.width)

theorem magOf_lt : magOf f b < 2 ^ (f.width - 1) := Nat.mod_lt _ (Nat.two_pow_pos _)

theorem fracOf_eq : fracOf f b = magOf f b % 2 ^ (f.prec - 1) := by
  rw [fracOf, magOf, Nat.mod_mod_of_dvd _ ⟨_, f.two_pow_magnitude⟩]

theorem expOf_eq : expOf f b = magOf f b / 2 ^ (f.prec - 1) := by
  rw [expOf, magOf, f.two_pow_magnitude, Nat.mod_mul_right_div_self]

theorem signOf_eq : signOf f b = decide (2 ^ (f.width - 1) ≤ b.toNat) := by
  have hlt : b.toNat < 2 * 2 ^ (f.width - 1) := f.two_pow_width ▸ b.isLt
  have hdiv : b.toNat / 2 ^ (f.width - 1) < 2 := (Nat.div_lt_iff_lt_mul (Nat.two_pow_pos _)).mpr hlt
  rw [signOf, BitVec.getLsbD, Nat.testBit_eq_decide_div_mod_eq, Nat.mod_eq_of_lt hdiv, decide_eq_decide,
    ← Nat.one_le_div_iff (Nat.two_pow_pos _)]
  omega

/-- The pattern's number is its sign and its magnitude. -/
theorem toNat_eq_sign_add_mag : b.toNat = (if signOf f b then 2 ^ (f.width - 1) else 0) + magOf f b := by
  have hlt : b.toNat < 2 * 2 ^ (f.width - 1) := f.two_pow_width ▸ b.isLt
  rw [signOf_eq, magOf]
  by_cases h : 2 ^ (f.width - 1) ≤ b.toNat
  · rw [decide_eq_true h, if_pos rfl, Nat.mod_eq_sub_mod h, Nat.mod_eq_of_lt (by omega)]
    omega
  · rw [decide_eq_false h, Nat.mod_eq_of_lt (by omega)]
    simp

end

section

variable {f : Fmt} {mag : Nat} (neg : Bool) (h : mag < 2 ^ (f.width - 1))

include h

theorem toNat_signed : (signed f neg mag).toNat = (if neg then 2 ^ (f.width - 1) else 0) + mag := by
  have hw := f.two_pow_width
  rw [signed, BitVec.toNat_ofNat, Nat.mod_eq_of_lt (by split <;> omega)]
  split <;> simp

theorem signOf_signed : signOf f (signed f neg mag) = neg := by
  rw [signOf_eq, toNat_signed neg h]
  cases neg <;> simp [h]

theorem magOf_signed : magOf f (signed f neg mag) = mag := by
  rw [magOf, toNat_signed neg h]
  cases neg <;> simp [Nat.mod_eq_of_lt h]

end

/-- A pattern is its sign over its magnitude. -/
theorem signed_signOf_magOf (f : Fmt) (b : BitVec f.width) : signed f (signOf f b) (magOf f b) = b := by
  apply BitVec.eq_of_toNat_eq
  rw [toNat_signed _ (magOf_lt f b), ← toNat_eq_sign_add_mag]

theorem magOf_flipSign (f : Fmt) (b : BitVec f.width) : magOf f (flipSign f b) = magOf f b := by
  have hw := f.two_pow_width
  have hpos := Nat.two_pow_pos (f.width - 1)
  rw [magOf, flipSign, BitVec.toNat_xor, Nat.xor_mod_two_pow, BitVec.toNat_ofNat,
    Nat.mod_eq_of_lt (show 2 ^ (f.width - 1) < 2 ^ f.width by omega), Nat.mod_self, Nat.xor_zero, magOf]

theorem signOf_flipSign (f : Fmt) (b : BitVec f.width) : signOf f (flipSign f b) = !signOf f b := by
  have hpos : f.width - 1 < f.width := by cases f <;> decide
  rw [signOf, flipSign, BitVec.getLsbD_xor, BitVec.getLsbD_ofNat, Nat.testBit_two_pow_self]
  simp [hpos, signOf]

/-! ### The value of a magnitude (R491) -/

/-- The value of a finite magnitude: its significand, the hidden bit included, in units of its last place. One place
above the greatest finite magnitude it is the value that an unbounded exponent would give. -/
def magValue (f : Fmt) (k : Nat) : ℚ :=
  ((k - (k / 2 ^ (f.prec - 1) - 1) * 2 ^ (f.prec - 1) : Nat) : ℚ) *
    2 ^ (f.minQuantum + (k / 2 ^ (f.prec - 1) - 1 : Nat))

/-- A value with a sign. -/
def negIf {α : Type} [Neg α] (neg : Bool) (v : α) : α := if neg then -v else v

theorem exactValue_eq (neg : Bool) (m : Nat) (e : Int) : exactValue neg m e = negIf neg ((m : ℚ) * 2 ^ e) := by
  cases neg <;> simp [exactValue, negIf]

/-- A magnitude of `j` whole exponent steps and `n` units is worth `n` units of its last place; `n` may reach the next
step. -/
theorem magValue_place (f : Fmt) {j n : Nat} (hn : n ≤ 2 ^ f.prec) (hj : j = 0 ∨ 2 ^ (f.prec - 1) ≤ n) :
    magValue f (j * 2 ^ (f.prec - 1) + n) = n * 2 ^ (f.minQuantum + j) := by
  have hpos := Nat.two_pow_pos (f.prec - 1)
  rw [f.two_pow_prec] at hn
  unfold magValue
  generalize 2 ^ (f.prec - 1) = M at *
  rw [Nat.mul_comm j M, Nat.mul_add_div hpos, Nat.mul_comm _ M]
  obtain hlt | hlt | rfl : n < M ∨ (M ≤ n ∧ n < 2 * M) ∨ n = 2 * M := by omega
  · obtain rfl : j = 0 := by omega
    simp [Nat.div_eq_of_lt hlt]
  · have hdiv : n / M = 1 := Nat.div_eq_of_lt_le (by omega) (by omega)
    simp [hdiv]
  · have hstep : M * j + 2 * M - M * (j + 1) = M := by rw [Nat.mul_add]; omega
    rw [Nat.mul_div_cancel _ hpos, show j + 2 - 1 = j + 1 from rfl, hstep, Nat.cast_add, ← add_assoc,
      zpow_add₀ two_ne_zero]
    push_cast
    ring

/-- The next magnitude is one unit of the last place further. -/
theorem magValue_succ (f : Fmt) (k : Nat) :
    magValue f (k + 1) = magValue f k + 2 ^ (f.minQuantum + (k / 2 ^ (f.prec - 1) - 1 : Nat)) := by
  set j := k / 2 ^ (f.prec - 1) - 1 with hj
  have hdiv := Nat.div_add_mod k (2 ^ (f.prec - 1))
  have hmod := Nat.mod_lt k (Nat.two_pow_pos (f.prec - 1))
  obtain ⟨n, hk, hn, hstep⟩ : ∃ n, k = j * 2 ^ (f.prec - 1) + n ∧ n < 2 ^ f.prec ∧ (j = 0 ∨ 2 ^ (f.prec - 1) ≤ n) := by
    rw [f.two_pow_prec]
    rcases Nat.eq_zero_or_pos (k / 2 ^ (f.prec - 1)) with h0 | hpos
    · exact ⟨k, by simp [hj, h0], by rw [h0] at hdiv; omega, by simp [hj, h0]⟩
    · refine ⟨2 ^ (f.prec - 1) + k % 2 ^ (f.prec - 1), ?_, by omega, by omega⟩
      rw [← add_assoc, ← Nat.succ_mul, hj, Nat.succ_eq_add_one, Nat.sub_add_cancel hpos, Nat.mul_comm, hdiv]
  rw [hk, add_assoc, magValue_place f (by omega) (by omega), magValue_place f hn.le hstep]
  push_cast
  ring

theorem magValue_strictMono (f : Fmt) : StrictMono (magValue f) :=
  strictMono_nat_of_lt_succ fun k => by
    rw [magValue_succ]
    exact lt_add_of_pos_right _ (by positivity)

@[simp] theorem magValue_zero (f : Fmt) : magValue f 0 = 0 := by simp [magValue]

theorem magValue_pos {f : Fmt} {k : Nat} (hk : 0 < k) : 0 < magValue f k := magValue_zero f ▸ magValue_strictMono f hk

theorem magValue_nonneg (f : Fmt) (k : Nat) : 0 ≤ magValue f k :=
  magValue_zero f ▸ (magValue_strictMono f).monotone k.zero_le

theorem magValue_eq_zero_iff {f : Fmt} {k : Nat} : magValue f k = 0 ↔ k = 0 := by
  rw [← magValue_zero f, (magValue_strictMono f).injective.eq_iff]

/-- The magnitude of an infinity stands one place above the greatest finite one. -/
theorem magValue_infBits (f : Fmt) : magValue f f.infBits = pastMax f := by
  have h : f.infBits = 2 * f.bias * 2 ^ (f.prec - 1) + 2 ^ (f.prec - 1) := by rw [f.infBits_eq, Nat.succ_mul]
  have hprec : ((f.prec - 1 : Nat) : ℤ) = f.prec - 1 := by cases f <;> rfl
  rw [h, magValue_place f (by rw [f.two_pow_prec]; omega) (.inr le_rfl), pastMax, Nat.cast_pow, Nat.cast_ofNat,
    ← zpow_natCast, hprec, ← zpow_add₀ two_ne_zero, Fmt.minQuantum]
  congr 1
  push_cast
  ring

theorem magValue_infBits_pred (f : Fmt) : magValue f (f.infBits - 1) = maxFinite f := by
  have h : f.infBits - 1 = (2 * f.bias - 1) * 2 ^ (f.prec - 1) + (2 ^ f.prec - 1) := by cases f <;> rfl
  have hbias : ((2 * f.bias - 1 : Nat) : ℤ) = 2 * f.bias - 1 := by cases f <;> rfl
  have hpos := Nat.two_pow_pos (f.prec - 1)
  rw [h, magValue_place f (Nat.sub_le _ _) (.inr (by rw [f.two_pow_prec]; omega)), maxFinite,
    Nat.cast_sub (Nat.two_pow_pos _), hbias, Fmt.minQuantum]
  congr 1
  · push_cast; rfl
  · congr 1; ring

/-! ### What a pattern stands for (R491, R492) -/

theorem expOf_eq_top_iff (f : Fmt) (b : BitVec f.width) : expOf f b = 2 ^ f.expBits - 1 ↔ f.infBits ≤ magOf f b := by
  have hlt := magOf_lt f b
  rw [expOf_eq, f.infBits_eq, f.two_pow_expBits]
  rw [f.two_pow_magnitude, f.two_pow_expBits, Nat.mul_comm, ← Nat.div_lt_iff_lt_mul (Nat.two_pow_pos _)] at hlt
  rw [← Nat.le_div_iff_mul_le (Nat.two_pow_pos _)]
  omega

/-- A pattern above the infinities is a NaN. -/
theorem unpack_nan {f : Fmt} {b : BitVec f.width} (h : f.infBits < magOf f b) : ∃ q, unpack f b = .nan q := by
  have hlt := magOf_lt f b
  have hfrac : fracOf f b ≠ 0 := by
    have := f.infBits_add_fraction
    have hdvd : 2 ^ (f.prec - 1) ∣ f.infBits := ⟨_, by rw [f.infBits_eq, Nat.mul_comm]⟩
    rw [fracOf_eq, ← Nat.sub_add_cancel h.le, Nat.add_mod, Nat.mod_eq_zero_of_dvd hdvd, Nat.add_zero, Nat.mod_mod,
      Nat.mod_eq_of_lt (by omega)]
    omega
  exact ⟨decide (fracOf f b < 2 ^ (f.prec - 2)), by
    simp only [unpack, (expOf_eq_top_iff f b).mpr h.le, if_true, if_neg hfrac]⟩

theorem unpack_inf {f : Fmt} {b : BitVec f.width} (h : magOf f b = f.infBits) : unpack f b = .inf (signOf f b) := by
  have hfrac : fracOf f b = 0 := by rw [fracOf_eq, h, f.infBits_eq, Nat.mul_mod_left]
  simp only [unpack, (expOf_eq_top_iff f b).mpr h.ge, if_true, hfrac]

/-- A pattern below the infinities is finite, its significand within the precision and its last place within the
format. -/
theorem unpack_fin {f : Fmt} {b : BitVec f.width} (h : magOf f b < f.infBits) :
    ∃ m e, unpack f b = .fin (signOf f b) m e ∧ (m : ℚ) * 2 ^ e = magValue f (magOf f b) ∧ m < 2 ^ f.prec ∧
      f.minQuantum ≤ e := by
  have hexp : expOf f b ≠ 2 ^ f.expBits - 1 := fun htop => absurd ((expOf_eq_top_iff f b).mp htop) (by omega)
  have hfrac : fracOf f b < 2 ^ (f.prec - 1) := Nat.mod_lt _ (Nat.two_pow_pos _)
  have hmag : magOf f b = expOf f b * 2 ^ (f.prec - 1) + fracOf f b := by
    rw [expOf_eq, fracOf_eq, Nat.mul_comm, Nat.div_add_mod]
  have hprec := f.two_pow_prec
  by_cases h0 : expOf f b = 0
  · refine ⟨fracOf f b, f.minQuantum, by simp only [unpack, if_neg hexp, if_pos h0], ?_, by omega, le_rfl⟩
    rw [hmag, h0, magValue_place f (by omega) (.inl rfl)]
    simp
  · refine ⟨fracOf f b + 2 ^ (f.prec - 1), f.minQuantum + expOf f b - 1,
      by simp only [unpack, if_neg hexp, if_neg h0], ?_, by omega, by omega⟩
    obtain ⟨j, hj⟩ := Nat.exists_eq_succ_of_ne_zero h0
    rw [hmag, hj, Nat.succ_mul, add_assoc, add_comm (2 ^ _), magValue_place f (by omega) (.inr (by omega))]
    congr 2
    push_cast
    ring

section

variable {f : Fmt} {b : BitVec f.width}

theorem isNan_iff : (unpack f b).isNan = true ↔ f.infBits < magOf f b := by
  rcases lt_trichotomy (magOf f b) f.infBits with h | h | h
  · obtain ⟨m, e, hfin, -⟩ := unpack_fin h
    simp [hfin, FpVal.isNan, h.le]
  · simp [unpack_inf h, FpVal.isNan, h]
  · obtain ⟨q, hnan⟩ := unpack_nan h
    simp [hnan, FpVal.isNan, h]

theorem unpack_eq_inf_iff {neg : Bool} : unpack f b = .inf neg ↔ magOf f b = f.infBits ∧ signOf f b = neg := by
  rcases lt_trichotomy (magOf f b) f.infBits with h | h | h
  · obtain ⟨m, e, hfin, -⟩ := unpack_fin h
    simp [hfin, h.ne]
  · simp [unpack_inf h, h]
  · obtain ⟨q, hnan⟩ := unpack_nan h
    simp [hnan, h.ne']

theorem hasValue_iff {x : ℚ} :
    HasValue f b x ↔ magOf f b < f.infBits ∧ x = negIf (signOf f b) (magValue f (magOf f b)) := by
  rcases lt_trichotomy (magOf f b) f.infBits with h | h | h
  · obtain ⟨m, e, hfin, hval, -⟩ := unpack_fin h
    simp [HasValue, hfin, h, exactValue_eq, hval, eq_comm]
  · simp [HasValue, unpack_inf h, h]
  · obtain ⟨q, hnan⟩ := unpack_nan h
    simp [HasValue, hnan, h.le]

end

/-- A finite pattern's value, sign and number. -/
theorem HasValue.unpack {f : Fmt} {b : BitVec f.width} {x : ℚ} (h : HasValue f b x) :
    ∃ m e, Machine.unpack f b = .fin (signOf f b) m e ∧ exactValue (signOf f b) m e = x ∧ m < 2 ^ f.prec ∧
      f.minQuantum ≤ e := by
  obtain ⟨hfin, hx⟩ := hasValue_iff.mp h
  obtain ⟨m, e, hunpack, hval, hm, he⟩ := unpack_fin hfin
  exact ⟨m, e, hunpack, by rw [exactValue_eq, hval, hx], hm, he⟩

/-! ### Comparison by value (R497) -/

/-- The value an order key stands for. -/
def keyValue (f : Fmt) (i : Int) : ℚ := negIf (decide (i < 0)) (magValue f i.natAbs)

theorem keyValue_strictMono (f : Fmt) : StrictMono (keyValue f) := by
  intro i j hij
  unfold keyValue negIf
  rcases lt_or_ge i 0 with hi | hi <;> rcases lt_or_ge j 0 with hj | hj
  · simpa [hi, hj] using magValue_strictMono f (show j.natAbs < i.natAbs by omega)
  · have hneg := magValue_pos (f := f) (show 0 < i.natAbs by omega)
    have hnonneg := magValue_nonneg f j.natAbs
    simp only [hi, hj.not_gt, decide_true, decide_false, if_true, Bool.false_eq_true, if_false]
    linarith
  · omega
  · simpa [hi.not_gt, hj.not_gt] using magValue_strictMono f (show i.natAbs < j.natAbs by omega)

theorem keyValue_signedInt (f : Fmt) (neg : Bool) (k : Nat) :
    keyValue f (signedInt neg k) = negIf neg (magValue f k) := by
  rcases Nat.eq_zero_or_pos k with rfl | hk <;> cases neg <;> simp [keyValue, signedInt, negIf, *]

theorem keyValue_orderKey {f : Fmt} {b : BitVec f.width} {x : ℚ} (h : HasValue f b x) :
    keyValue f (orderKey f b) = x := by
  rw [(hasValue_iff.mp h).2]
  exact keyValue_signedInt f (signOf f b) (magOf f b)

theorem orderKey_eq (f : Fmt) (b : BitVec f.width) : orderKey f b = signedInt (signOf f b) (magOf f b) := rfl

theorem orderKey_inf {f : Fmt} {b : BitVec f.width} {neg : Bool} (h : unpack f b = .inf neg) :
    orderKey f b = signedInt neg f.infBits := by
  obtain ⟨hmag, hsign⟩ := unpack_eq_inf_iff.mp h
  rw [orderKey_eq, hmag, hsign]

theorem natAbs_orderKey_lt {f : Fmt} {b : BitVec f.width} {x : ℚ} (h : HasValue f b x) :
    (orderKey f b).natAbs < f.infBits := by
  have hfin := (hasValue_iff.mp h).1
  rw [orderKey_eq]
  cases signOf f b <;> simpa [signedInt]

theorem HasValue.isNan {f : Fmt} {b : BitVec f.width} {x : ℚ} (h : HasValue f b x) :
    (Machine.unpack f b).isNan = false := by
  obtain ⟨m, e, hunpack, -⟩ := h.unpack
  rw [hunpack]
  rfl

section

variable {f : Fmt} {a b : BitVec f.width}

theorem fpuEq_of_numbers (h : anyNan f a b = false) : fpuEq f a b = (decide (orderKey f a = orderKey f b), 0) := by
  simp [fpuEq, h]

theorem fpuLt_of_numbers (h : anyNan f a b = false) : fpuLt f a b = (decide (orderKey f a < orderKey f b), 0) := by
  simp [fpuLt, h]

theorem fpuLe_of_numbers (h : anyNan f a b = false) : fpuLe f a b = (decide (orderKey f a ≤ orderKey f b), 0) := by
  simp [fpuLe, h]

theorem anyNan_eq_false (ha : (unpack f a).isNan = false) (hb : (unpack f b).isNan = false) : anyNan f a b = false := by
  simp [anyNan, ha, hb]

theorem anyNan_comm (f : Fmt) (a b : BitVec f.width) : anyNan f a b = anyNan f b a := Bool.or_comm _ _

theorem isNan_of_inf {neg : Bool} (h : unpack f a = .inf neg) : (unpack f a).isNan = false := by rw [h]; rfl

/-- Numbers compare as their values do. -/
theorem compare_of_values {x y : ℚ} (ha : HasValue f a x) (hb : HasValue f b y) :
    fpuEq f a b = (decide (x = y), 0) ∧ fpuLt f a b = (decide (x < y), 0) ∧ fpuLe f a b = (decide (x ≤ y), 0) := by
  have hnan := anyNan_eq_false ha.isNan hb.isNan
  have hmono := keyValue_strictMono f
  rw [fpuEq_of_numbers hnan, fpuLt_of_numbers hnan, fpuLe_of_numbers hnan, ← keyValue_orderKey ha,
    ← keyValue_orderKey hb]
  simp only [hmono.injective.eq_iff, hmono.lt_iff_lt, hmono.le_iff_le, and_self]

/-- An infinity lies beyond every number. -/
theorem compare_inf_of_value {neg : Bool} {y : ℚ} (ha : unpack f a = .inf neg) (hb : HasValue f b y) :
    fpuEq f a b = (false, 0) ∧ fpuLt f a b = (neg, 0) ∧ fpuLe f a b = (neg, 0) ∧
      fpuEq f b a = (false, 0) ∧ fpuLt f b a = (!neg, 0) ∧ fpuLe f b a = (!neg, 0) := by
  have hnan := anyNan_eq_false (isNan_of_inf ha) hb.isNan
  have hnan' := hnan
  rw [anyNan_comm] at hnan'
  have hlt := natAbs_orderKey_lt hb
  rw [fpuEq_of_numbers hnan, fpuLt_of_numbers hnan, fpuLe_of_numbers hnan, fpuEq_of_numbers hnan',
    fpuLt_of_numbers hnan', fpuLe_of_numbers hnan', orderKey_inf ha]
  cases neg <;> simp [signedInt] <;> omega

theorem compare_of_infs {n m : Bool} (ha : unpack f a = .inf n) (hb : unpack f b = .inf m) :
    fpuEq f a b = (n == m, 0) ∧ fpuLt f a b = (n && !m, 0) ∧ fpuLe f a b = (n || !m, 0) := by
  have hnan := anyNan_eq_false (isNan_of_inf ha) (isNan_of_inf hb)
  have hpos := f.infBits_pos
  rw [fpuEq_of_numbers hnan, fpuLt_of_numbers hnan, fpuLe_of_numbers hnan, orderKey_inf ha, orderKey_inf hb]
  cases n <;> cases m <;> simp [signedInt] <;> omega

/-! ### Minimum and maximum (R496) -/

theorem before_self (f : Fmt) (a : BitVec f.width) : before f a a = false := by simp [before]

/-- The smaller of two numbers comes before the other. -/
theorem before_of_lt (h : orderKey f a < orderKey f b) : before f a b = true ∧ before f b a = false := by
  simp [before, h, h.ne, h.ne', h.le]

/-- The negative zero comes before the positive one. -/
theorem before_zeros (f : Fmt) : before f (zeroOf f true) (zeroOf f false) = true ∧
    before f (zeroOf f false) (zeroOf f true) = false := by
  cases f <;> decide

theorem fpuMin_of_numbers (ha : (unpack f a).isNan = false) (hb : (unpack f b).isNan = false) :
    (fpuMin f a b).1 = if before f b a then b else a := by
  simp [fpuMin, ha, hb]

theorem fpuMax_of_numbers (ha : (unpack f a).isNan = false) (hb : (unpack f b).isNan = false) :
    (fpuMax f a b).1 = if before f a b then b else a := by
  simp [fpuMax, ha, hb]

theorem minMax_of_before (ha : (unpack f a).isNan = false) (hb : (unpack f b).isNan = false)
    (h : before f a b = true ∧ before f b a = false) :
    (fpuMin f a b).1 = a ∧ (fpuMax f a b).1 = b ∧ (fpuMin f b a).1 = a ∧ (fpuMax f b a).1 = b := by
  rw [fpuMin_of_numbers ha hb, fpuMax_of_numbers ha hb, fpuMin_of_numbers hb ha, fpuMax_of_numbers hb ha, h.1, h.2]
  exact ⟨rfl, rfl, rfl, rfl⟩

end

theorem isNan_zeroOf (f : Fmt) (neg : Bool) : (unpack f (zeroOf f neg)).isNan = false := by
  cases f <;> cases neg <;> decide

/-- Settles O41: numbers compare as their order keys, which rise with the values; minimum and maximum pick the operand
that comes before or after the other. -/
theorem compareAndMinMax : Obligations.CompareAndMinMax := by
  intro f a b
  refine ⟨fun h => ?nan, fun x y => compare_of_values, fun n y => compare_inf_of_value, fun n m => compare_of_infs,
    fun ha hb => ?twoNans, fun ha hb => ?leftNan, fun ha hb => ?rightNan,
    fun ha hb => ⟨fun h => ?less, fun h => ?greater⟩, fun ha => ?same, fun ha hb => ?zeros, ?minFlags, ?maxFlags⟩
  case nan =>
    have hany : anyNan f a b = true := by simpa [anyNan] using h
    simp [fpuLt, fpuLe, fpuEq, hany, flagIf, anySnan]
  case twoNans => simp [fpuMin, fpuMax, ha, hb]
  case leftNan => simp [fpuMin, fpuMax, ha, hb]
  case rightNan => simp [fpuMin, fpuMax, ha, hb]
  case less =>
    rw [fpuLt_of_numbers (anyNan_eq_false ha hb)] at h
    obtain ⟨hmin, hmax, -⟩ := minMax_of_before ha hb (before_of_lt (of_decide_eq_true h))
    exact ⟨hmin, hmax⟩
  case greater =>
    rw [fpuLt_of_numbers (anyNan_eq_false hb ha)] at h
    obtain ⟨-, -, hmin, hmax⟩ := minMax_of_before hb ha (before_of_lt (of_decide_eq_true h))
    exact ⟨hmin, hmax⟩
  case same => simp [fpuMin_of_numbers ha ha, fpuMax_of_numbers ha ha, before_self]
  case zeros =>
    subst ha hb
    exact minMax_of_before (isNan_zeroOf f true) (isNan_zeroOf f false) (before_zeros f)
  case minFlags => simp [fpuMin, flagIf, anySnan]
  case maxFlags => simp [fpuMax, flagIf, anySnan]

/-! ### The class mask (R498) -/

theorem getLsbD_classBit {k : Nat} (hk : k < 10) (i : Nat) : (BitVec.twoPow 32 k).getLsbD i = decide (i = k) := by
  rw [BitVec.getLsbD_twoPow, decide_eq_true (show k < 32 by omega), Bool.true_and, decide_eq_decide]
  exact eq_comm

/-- The class of a pattern, read off its fields. -/
def classOf (f : Fmt) (b : BitVec f.width) : Nat :=
  if expOf f b = 2 ^ f.expBits - 1 then
    if fracOf f b = 0 then (if signOf f b then 0 else 7)
    else if fracOf f b < 2 ^ (f.prec - 2) then 8 else 9
  else if expOf f b = 0 then
    if fracOf f b = 0 then (if signOf f b then 3 else 4) else (if signOf f b then 2 else 5)
  else (if signOf f b then 1 else 6)

theorem classOf_lt (f : Fmt) (b : BitVec f.width) : classOf f b < 10 := by
  unfold classOf
  split_ifs <;> decide

theorem classMask_eq (f : Fmt) (b : BitVec f.width) : classMask f b = BitVec.twoPow 32 (classOf f b) := by
  have hpos := Nat.two_pow_pos (f.prec - 1)
  unfold classMask unpack classOf
  by_cases htop : expOf f b = 2 ^ f.expBits - 1
  · by_cases hfrac : fracOf f b = 0
    · cases hs : signOf f b <;> simp [htop, hfrac] <;> rfl
    · by_cases hquiet : fracOf f b < 2 ^ (f.prec - 2) <;> simp [htop, hfrac, hquiet] <;> rfl
  · simp only [if_neg htop]
    by_cases h0 : expOf f b = 0
    · by_cases hfrac : fracOf f b = 0 <;> cases hs : signOf f b <;> simp [h0, hfrac] <;> rfl
    · have hnormal : fracOf f b + 2 ^ (f.prec - 1) ≠ 0 := by omega
      cases hs : signOf f b <;> simp only [if_neg h0, if_neg hnormal] <;> rfl

/-- Settles O46: the mask is the bit of the class that the fields give. -/
theorem classIsOneHot : Obligations.ClassIsOneHot := fun f b =>
  ⟨classOf_lt f b, fun i => by rw [classMask_eq, getLsbD_classBit (classOf_lt f b)]; rfl⟩

end Sys2Proof.Machine

/-! SUPPORT and PROOFS. The floating-point instructions (45_float_single.md, 46_float_double.md): what each ending of
one leaves, a rounding mode resolved or not, and single loads and stores. -/

namespace Sys2Proof.Machine

/-! ### Endings of a floating-point instruction (R460, R461) -/

section

variable {i : Instr} {s : State} {rd : Reg}

theorem runs_of_writeF {v v' : DWord} (hexec : exec i s = finish (.done (s.startIter.writeF rd v))) (hv : v = v') :
    Runs i s (fun t => SetsF s t rd v' 0 0) :=
  ⟨_, hexec, hv ▸ writeF_advance s rd v⟩

theorem runs_of_retireD {res : DWord × Fflags} (hexec : exec i s = finish (.done (s.startIter.retireD rd res))) :
    Runs i s (fun t => SetsF s t rd res.1 res.2 0) :=
  ⟨_, hexec, retireD_advance s rd res⟩

theorem runs_of_retireS {res : Word × Fflags} (hexec : exec i s = finish (.done (s.startIter.retireS rd res))) :
    Runs i s (fun t => SetsF s t rd ((0xFFFFFFFF : Word) ++ res.1) res.2 0) :=
  ⟨_, hexec, retireS_advance s rd res⟩

theorem runs_of_retireX {res : Word × Fflags} (hexec : exec i s = finish (.done (s.startIter.retireX rd res))) :
    Runs i s (fun t => SetsX s t rd res.1 res.2 (s.pc + 4) 0) :=
  ⟨_, hexec, retireX_advance s rd res⟩

/-- An instruction under a rounding mode ends as its body does where the mode resolves, and is illegal where it does
not. -/
theorem runsRounded_of_withRm {rm : BitVec 3} {k : Rm → State} {post : Rm → State → Prop}
    (hexec : exec i s = finish (withRm rm s.startIter k)) (hpost : ∀ r, post r (k r).advance) :
    RunsRounded i rm s post := by
  refine ⟨fun r hr => ⟨_, ?_, hpost r⟩, fun hnone hidle w hw => traps_of_raise ?_ hidle⟩
  · rw [hexec, withRm_some (s := s.startIter) hr]
    rfl
  · rw [hexec, withRm_none (s := s.startIter) hnone, fetchedWord_startIter hw]

theorem runsRounded_of_retireD {rm : BitVec 3} {res : Rm → DWord × Fflags}
    (hexec : exec i s = finish (withRm rm s.startIter fun r => s.startIter.retireD rd (res r))) :
    RunsRounded i rm s (fun r t => SetsF s t rd (res r).1 (res r).2 0) :=
  runsRounded_of_withRm hexec fun r => retireD_advance s rd (res r)

theorem runsRounded_of_retireS {rm : BitVec 3} {res : Rm → Word × Fflags}
    (hexec : exec i s = finish (withRm rm s.startIter fun r => s.startIter.retireS rd (res r))) :
    RunsRounded i rm s (fun r t => SetsF s t rd ((0xFFFFFFFF : Word) ++ (res r).1) (res r).2 0) :=
  runsRounded_of_withRm hexec fun r => retireS_advance s rd (res r)

theorem runsRounded_of_retireX {rm : BitVec 3} {res : Rm → Word × Fflags}
    (hexec : exec i s = finish (withRm rm s.startIter fun r => s.startIter.retireX rd (res r))) :
    RunsRounded i rm s (fun r t => SetsX s t rd (res r).1 (res r).2 (s.pc + 4) 0) :=
  runsRounded_of_withRm hexec fun r => retireX_advance s rd (res r)

end

/-! ### Single loads and stores (R462, R463) -/

/-- A read, a floating-point register written and the advance. -/
theorem afterRead_writeF_advance (s : State) (ea : Word) (rd : Reg) (v : DWord) :
    SetsF s ((s.startIter.afterRead ea).writeF rd v).advance rd v 0 (loadDraws s ea) where
  gpr r := State.readX_congr (by simp) r
  fpr r := by
    rw [State.readF_congr (s := (s.startIter.afterRead ea).writeF rd v) (by simp), State.readF_writeF,
      State.readF_congr (t := s.startIter.afterRead ea) (s := s) (by simp)]
  csr := by simp
  pc := by simp [State.advance_pc, State.startIter]
  memory := .of_eq (by simp) (by simp) (by simp)
  rest := by constructor <;> simp
  draws := by
    rw [State.advance_draws, State.writeF_draws]
    exact s.startIter.afterRead_draws ea
  completed := by constructor <;> simp [State.startIter]

theorem Stores.congr_data {s t : State} {a : Word} {n : Nat} {data data' : Nat → Byte} (h : Stores s t a n data)
    (hdata : ∀ k < n, data k = data' k) : Stores s t a n data' :=
  { h with inside := fun b hb => (h.inside b hb).trans (hdata _ hb) }

/-- The bytes of a register's low word are its own low bytes. -/
theorem byteOf_low (v : DWord) {k : Nat} (hk : k < 4) : byteOf (v.extractLsb' 0 32) k = v.extractLsb' (8 * k) 8 := by
  refine BitVec.eq_of_getLsbD_eq fun i hi => ?_
  have hlow : 8 * k + i < 32 := by omega
  simp [byteOf, hi, hlow]

section

variable {s : State} {rd rs1 rs2 : Reg} {imm : BitVec 12}

theorem runs_flw (haligned : (s.effAddr rs1 imm).toNat % 4 = 0) (hp : permits s.cfg (s.effAddr rs1 imm) .read = true) :
    Runs (.flw rd rs1 imm) s (fun t => SetsF s t rd ((0xFFFFFFFF : Word) ++ loadedWord s (s.effAddr rs1 imm)) 0
      (loadDraws s (s.effAddr rs1 imm))) := by
  refine ⟨_, ?_, afterRead_writeF_advance s (s.effAddr rs1 imm) rd _⟩
  rw [← s.loadedValue_word]
  change execFlw rd rs1 imm s = _
  rw [execFlw, s.startIter.memRead_of_no_fault (s.startIter.accessFault_of_permitted (w := .word) haligned hp)]
  rfl

theorem traps_flw {e : Exc} (hidle : SyncIdle s) (hfault : s.accessFault .read (s.effAddr rs1 imm) .word = some e) :
    Traps (.flw rd rs1 imm) s e := by
  refine traps_of_raise ?_ hidle
  change execFlw rd rs1 imm s = _
  rw [execFlw, s.startIter.memRead_of_fault hfault]

end

/-- Settles O28: each encoding is a row of the table; `fsw` comes to a store of the low word, and `flw` to a load. -/
theorem singleLoadStore : Obligations.SingleLoadStore := by
  refine ⟨⟨encodes_of_row .flw, encodes_of_row .fsw⟩, ?_⟩
  intro s rd rs1 rs2 imm ea
  refine ⟨fun h => ⟨fun hp => ?flw, fun hwf hp => ?fsw, fun hidle hp => ?flwDenied, fun hidle hp => ?fswDenied⟩,
    fun h hidle => ?misaligned⟩
  case flw => exact runs_flw h hp
  case fsw =>
    obtain ⟨t, hnext, hstores, -⟩ := runs_of_storeAt (i := .fsw rs1 rs2 imm) (v := s.readLow rs2) .word rfl hwf h hp
    exact ⟨t, hnext, hstores.congr_data fun k hk => byteOf_low _ hk⟩
  case flwDenied => exact traps_flw hidle (s.accessFault_of_denied h hp)
  case fswDenied => exact traps_of_storeAt (v := s.readLow rs2) .word rfl hidle (s.accessFault_of_denied h hp)
  case misaligned =>
    exact ⟨traps_flw hidle (s.accessFault_of_misaligned h),
      traps_of_storeAt (v := s.readLow rs2) .word rfl hidle (s.accessFault_of_misaligned h)⟩

/-! ### Sign injection (R473-R475, R533-R535) -/

theorem withSign_eq (f : Fmt) (a : BitVec f.width) (neg : Bool) : withSign f a neg = signed f neg (magOf f a) := rfl

/-- A magnitude under a sign is the sign bit appended to the low bits. -/
theorem toNat_withSign (f : Fmt) (a : BitVec f.width) (neg : Bool) :
    (withSign f a neg).toNat = (BitVec.ofBool neg ++ a.extractLsb' 0 (f.width - 1)).toNat := by
  rw [BitVec.toNat_append, ← Nat.shiftLeft_add_eq_or_of_lt (BitVec.isLt _),
    withSign_eq, toNat_signed _ (magOf_lt f a)]
  cases neg <;> simp [Nat.shiftLeft_eq, magOf]

theorem ofBool_signOf (f : Fmt) (b : BitVec f.width) : BitVec.ofBool (signOf f b) = b.extractLsb' (f.width - 1) 1 := by
  refine BitVec.eq_of_getLsbD_eq fun i hi => ?_
  obtain rfl : i = 0 := by omega
  simp [signOf]

/-- Settles O36: each instruction comes to a register write, whose word is the sign bit appended to the magnitude. -/
theorem signInjectionResults : Obligations.SignInjectionResults := by
  refine ⟨⟨encodes_of_row .fsgnjS, encodes_of_row .fsgnjnS, encodes_of_row .fsgnjxS, encodes_of_row .fsgnjD,
    encodes_of_row .fsgnjnD, encodes_of_row .fsgnjxD⟩, ?_⟩
  intro s rd r1 r2 a b x y signed32 signed64 sa sb sx sy
  have hsingle (neg : Bool) {sign : BitVec 1} (h : BitVec.ofBool neg = sign) :
      boxSingle (withSign .S a neg) = signed32 sign := by
    rw [← h]
    exact congrArg boxSingle (BitVec.eq_of_toNat_eq (toNat_withSign .S a neg))
  have hdouble (neg : Bool) {sign : BitVec 1} (h : BitVec.ofBool neg = sign) :
      withSign .D x neg = signed64 sign := by
    rw [← h]
    exact BitVec.eq_of_toNat_eq (toNat_withSign .D x neg)
  have hsa : BitVec.ofBool (signOf .S a) = sa := ofBool_signOf .S a
  have hsb : BitVec.ofBool (signOf .S b) = sb := ofBool_signOf .S b
  have hsx : BitVec.ofBool (signOf .D x) = sx := ofBool_signOf .D x
  have hsy : BitVec.ofBool (signOf .D y) = sy := ofBool_signOf .D y
  refine ⟨?sgnS, ?negS, ?xorS, ?sgnD, ?negD, ?xorD⟩
  case sgnS => exact runs_of_writeF rfl (hsingle _ hsb)
  case negS => exact runs_of_writeF rfl (hsingle _ (by rw [← BitVec.not_ofBool, hsb]))
  case xorS => exact runs_of_writeF rfl (hsingle _ (by rw [← hsa, ← hsb, BitVec.ofBool_xor_ofBool]))
  case sgnD => exact runs_of_writeF rfl (hdouble _ hsy)
  case negD => exact runs_of_writeF rfl (hdouble _ (by rw [← BitVec.not_ofBool, hsy]))
  case xorD => exact runs_of_writeF rfl (hdouble _ (by rw [← hsx, ← hsy, BitVec.ofBool_xor_ofBool]))

/-! ### Comparisons and moves (R476-R481, R486, R487, R536-R543) -/

/-- Settles O37: each instruction retires the FPU's result. -/
theorem compareResults : Obligations.CompareResults := by
  refine ⟨⟨encodes_of_row .fminS, encodes_of_row .fmaxS, encodes_of_row .feqS, encodes_of_row .fltS,
    encodes_of_row .fleS, encodes_of_row .fminD, encodes_of_row .fmaxD, encodes_of_row .feqD, encodes_of_row .fltD,
    encodes_of_row .fleD⟩, ?_⟩
  intro s rd r1 r2 a b x y single double bit
  have hbit {i : Instr} {res : Bool × Fflags}
      (hexec : exec i s = finish (.done (s.startIter.retireX rd (bitResult res)))) : Runs i s (bit res) :=
    runs_of_retireX hexec
  exact ⟨runs_of_retireS rfl, runs_of_retireS rfl, hbit rfl, hbit rfl, hbit rfl, runs_of_retireD rfl,
    runs_of_retireD rfl, hbit rfl, hbit rfl, hbit rfl⟩

/-- Settles O38: each instruction comes to one register write. -/
theorem moveResults : Obligations.MoveResults := by
  refine ⟨⟨encodes_of_row .fclassS, encodes_of_row .fclassD, encodes_of_row .fmvXW, encodes_of_row .fmvWX⟩, ?_⟩
  intro s rd r1
  exact ⟨runs_of_writesX rfl rfl, runs_of_writesX rfl rfl,
    runs_of_writesX rfl (BitVec.setWidth_eq_extractLsb' (by decide)).symm, runs_of_writeF rfl rfl⟩

end Sys2Proof.Machine

/-! SUPPORT and PROOFS. Rounding (45_float_single.md R460, R491): a positive real between two neighbouring magnitudes,
the mode's choice of one of them, and the flags; an integer significand that stands for a real closely enough rounds as
the real itself does. -/

namespace Sys2Proof.Machine

/-! ### A mode's choice between a lower and an upper neighbour (R460) -/

/-- The mode takes the upper of two neighbours in magnitude, of which the lower has number `k`, for a value that lies
the part `d` of the way from the lower to the upper. -/
def CarriesUp (r : Rm) (neg : Bool) (k : Nat) (d : ℝ) : Prop :=
  match r with
  | .rne => 1 / 2 < d ∨ (d = 1 / 2 ∧ k % 2 = 1)
  | .rtz => False
  | .rdn => neg = true ∧ d ≠ 0
  | .rup => neg = false ∧ d ≠ 0
  | .rmm => 1 / 2 ≤ d

theorem not_carriesUp_zero (r : Rm) (neg : Bool) (k : Nat) : ¬ CarriesUp r neg k 0 := by
  cases r <;> norm_num [CarriesUp]

/-- Only the parity of the lower neighbour matters. -/
theorem carriesUp_congr {r : Rm} {neg : Bool} {k l : Nat} {d : ℝ} (h : k % 2 = l % 2) :
    CarriesUp r neg k d ↔ CarriesUp r neg l d := by
  cases r <;> simp only [CarriesUp, h]

/-- `n` is the neighbour the mode takes. -/
def TakesNeighbour (r : Rm) (neg : Bool) (k : Nat) (d : ℝ) (n : Nat) : Prop :=
  (n = k ∧ ¬ CarriesUp r neg k d) ∨ (n = k + 1 ∧ CarriesUp r neg k d)

section

variable {r : Rm} {neg : Bool} {k : Nat} {d X : ℝ} (hX : 0 < X)

theorem carriesUp_of_toNearest (h : toNearest r) :
    (CarriesUp r neg k d → 1 / 2 ≤ d) ∧ (1 / 2 < d → CarriesUp r neg k d) := by
  rcases h with rfl | rfl
  · exact ⟨fun h => h.elim le_of_lt fun h => h.1.ge, .inl⟩
  · exact ⟨id, le_of_lt⟩

/-- Above an odd lower neighbour the tie goes up in both modes that round to nearest. -/
theorem carriesUp_iff_of_odd (h : toNearest r) (hk : k % 2 = 1) : CarriesUp r neg k d ↔ 1 / 2 ≤ d := by
  rcases h with rfl | rfl
  · simp only [CarriesUp, hk, and_true, le_iff_lt_or_eq, eq_comm]
  · exact Iff.rfl

include hX

theorem roundsAway_iff : roundsAway r (negIf neg X) ↔ (r = .rdn ∧ neg = true) ∨ (r = .rup ∧ neg = false) := by
  cases neg <;> simp [roundsAway, negIf, hX, hX.le]

theorem not_roundsAway_of_toNearest (h : toNearest r) : ¬ roundsAway r (negIf neg X) := by
  rw [roundsAway_iff hX]
  rcases h with rfl | rfl <;> simp

theorem carriesUp_of_roundsAway (h : roundsAway r (negIf neg X)) : CarriesUp r neg k d ↔ d ≠ 0 := by
  rcases (roundsAway_iff hX).mp h with ⟨rfl, rfl⟩ | ⟨rfl, rfl⟩ <;> simp [CarriesUp]

theorem not_carriesUp_of_toZero (hn : ¬ toNearest r) (ha : ¬ roundsAway r (negIf neg X)) : ¬ CarriesUp r neg k d := by
  rw [roundsAway_iff hX] at ha
  cases r <;> simp_all [CarriesUp, toNearest]

end

/-! ### Quantizing (R491) -/

/-- `m · 2^e` stands for `X` where places from `q` on matter: it is `X`, or its odd last bit, below the places that
matter, says that `X` lies strictly between the even neighbours. -/
def StandsAt (m : Nat) (e q : Int) (X : ℝ) : Prop :=
  X = m * 2 ^ e ∨ (e + 2 ≤ q ∧ m % 2 = 1 ∧ ((m : ℝ) - 1) * 2 ^ e < X ∧ X < (m + 1) * 2 ^ e)

theorem StandsAt.mono {m : Nat} {e q q' : Int} {X : ℝ} (h : StandsAt m e q X) (hq : q ≤ q') : StandsAt m e q' X :=
  h.imp_right fun ⟨he, hrest⟩ => ⟨he.trans hq, hrest⟩

/-- `res` is `X` quantized to the place `q`: `X` is `l + d` units, `res` the number of units the mode takes and whether
`X` is none. -/
structure Quantized (r : Rm) (neg : Bool) (X : ℝ) (q : Int) (res : Nat × Bool) (l : Nat) (d : ℝ) : Prop where
  nonneg : 0 ≤ d
  lt_one : d < 1
  split : X = (l + d) * 2 ^ q
  inexact : res.2 = true ↔ d ≠ 0
  taken : TakesNeighbour r neg l d res.1

/-- The model's test for a carry, for a true remainder `R` that compares with half a unit as the integer one does. -/
theorem roundsUp_iff {r : Rm} {neg : Bool} {q rem sh : Nat} {R : ℝ} (hzero : R = 0 ↔ rem = 0)
    (hgt : 2 ^ sh < 2 * R ↔ 2 ^ sh < 2 * rem) (heq : 2 * R = 2 ^ sh ↔ 2 * rem = 2 ^ sh) :
    roundsUp r neg q rem sh = true ↔ CarriesUp r neg q (R / 2 ^ sh) := by
  have hS : (0 : ℝ) < 2 ^ sh := by positivity
  have hgt' : 1 / 2 < R / 2 ^ sh ↔ 2 ^ sh < 2 * rem := by rw [← hgt, div_lt_div_iff₀ two_pos hS, one_mul, mul_comm R]
  have heq' : R / 2 ^ sh = 1 / 2 ↔ 2 * rem = 2 ^ sh := by
    rw [← heq, div_eq_div_iff hS.ne' two_ne_zero, one_mul, mul_comm R]
  have hzero' : R / 2 ^ sh = 0 ↔ rem = 0 := by rw [div_eq_zero_iff, or_iff_left hS.ne', hzero]
  cases r
  case rne => simp [roundsUp, CarriesUp, hgt', heq', -one_div]
  case rtz => simp [roundsUp, CarriesUp]
  case rdn => simp [roundsUp, CarriesUp, hzero', -div_eq_zero_iff]
  case rup => simp [roundsUp, CarriesUp, hzero', -div_eq_zero_iff]
  case rmm =>
    have hle : 1 / 2 ≤ R / 2 ^ sh ↔ 2 ^ sh ≤ 2 * rem := by
      rw [le_iff_lt_or_eq, eq_comm, hgt', heq', le_iff_lt_or_eq, eq_comm (a := 2 ^ sh)]
    simp [roundsUp, CarriesUp, hle, -one_div]

/-- The true remainder, of the real that a significand stands for, compares with half a unit and with nothing as the
significand's own remainder does. -/
theorem StandsAt.remainder {m : Nat} {e q : Int} {X : ℝ} (h : StandsAt m e q X) {sh : Nat} (hsh : q = e + sh) {R : ℝ}
    (hR : X / 2 ^ e = (m / 2 ^ sh : Nat) * 2 ^ sh + R) :
    0 ≤ R ∧ R < 2 ^ sh ∧ (R = 0 ↔ m % 2 ^ sh = 0) ∧ (2 ^ sh < 2 * R ↔ 2 ^ sh < 2 * (m % 2 ^ sh)) ∧
      (2 * R = 2 ^ sh ↔ 2 * (m % 2 ^ sh) = 2 ^ sh) := by
  have hpos : (0 : ℝ) < 2 ^ e := by positivity
  have hdiv : ((m / 2 ^ sh : Nat) : ℝ) * 2 ^ sh + (m % 2 ^ sh : Nat) = m := by
    exact_mod_cast Nat.div_add_mod' m (2 ^ sh)
  have hlt : m % 2 ^ sh < 2 ^ sh := Nat.mod_lt _ (Nat.two_pow_pos sh)
  obtain hexact | ⟨hplace, hodd, hlo, hhi⟩ := h
  · rw [hexact, mul_div_cancel_right₀ _ hpos.ne', ← hdiv, add_right_inj] at hR
    rw [← hR]
    exact ⟨Nat.cast_nonneg _, by exact_mod_cast hlt, by exact_mod_cast Iff.rfl, by exact_mod_cast Iff.rfl,
      by exact_mod_cast Iff.rfl⟩
  · obtain ⟨T, hT⟩ : ∃ T, 2 ^ sh = 2 * (2 * T) := ⟨2 ^ (sh - 2), by
      rw [← Nat.pow_succ', ← Nat.pow_succ']; congr 1; omega⟩
    have hodd' : m % 2 ^ sh % 2 = 1 := by rwa [Nat.mod_mod_of_dvd _ ⟨_, hT⟩]
    rw [← lt_div_iff₀ hpos, hR, ← hdiv] at hlo
    rw [← div_lt_iff₀ hpos, hR, ← hdiv] at hhi
    have hTr : (2 : ℝ) ^ sh = 2 * (2 * T) := by exact_mod_cast hT
    rw [hTr] at hlo hhi ⊢
    rw [hT] at hlt hlo hhi hodd' ⊢
    generalize m % (2 * (2 * T)) = rem at *
    have hbelow : (rem : ℝ) + 1 ≤ 2 * (2 * T) := by exact_mod_cast hlt
    have habove : (1 : ℝ) ≤ rem := by exact_mod_cast (show 1 ≤ rem by omega)
    rcases le_or_gt rem (2 * T) with hle | hgt
    · have hhalf : (rem : ℝ) + 1 ≤ 2 * T := by exact_mod_cast (show rem + 1 ≤ 2 * T by omega)
      refine ⟨by linarith, by linarith, ?_, ?_, ?_⟩
      · exact iff_of_false (by intro h; linarith) (by omega)
      · exact iff_of_false (by intro h; linarith) (by omega)
      · exact iff_of_false (by intro h; linarith) (by omega)
    · have hhalf : 2 * (T : ℝ) + 1 ≤ rem := by exact_mod_cast hgt
      refine ⟨by linarith, by linarith, ?_, ?_, ?_⟩
      · exact iff_of_false (by intro h; linarith) (by omega)
      · exact iff_of_true (by linarith) (by omega)
      · exact iff_of_false (by intro h; linarith) (by omega)

/-- Quantizing a significand quantizes the real it stands for. -/
theorem quantize_quantized (r : Rm) (neg : Bool) {m : Nat} {e q : Int} {X : ℝ} (h : StandsAt m e q X) :
    ∃ l d, Quantized r neg X q (quantize r neg m e q) l d := by
  have hpos : (0 : ℝ) < 2 ^ e := by positivity
  rcases le_or_gt q e with hqe | hqe
  · obtain rfl | ⟨hge, -⟩ := h
    · obtain ⟨k, rfl⟩ := Int.le.dest hqe
      refine ⟨m * 2 ^ k, 0, le_rfl, one_pos, ?_, by simp [quantize], .inl ⟨?_, not_carriesUp_zero _ _ _⟩⟩
      · push_cast
        rw [zpow_add₀ two_ne_zero, zpow_natCast]
        ring
      · simp [quantize, Nat.shiftLeft_eq]
    · omega
  · obtain ⟨sh, rfl⟩ := Int.le.dest hqe.le
    have hS : (0 : ℝ) < 2 ^ sh := by positivity
    obtain ⟨hnonneg, hlt, hzero, hgt, heq⟩ := h.remainder rfl (R := X / 2 ^ e - (m / 2 ^ sh : Nat) * 2 ^ sh) (by ring)
    set R := X / 2 ^ e - (m / 2 ^ sh : Nat) * 2 ^ sh with hR
    have hquantize : quantize r neg m e (e + sh) =
        (if roundsUp r neg (m / 2 ^ sh) (m % 2 ^ sh) sh then m / 2 ^ sh + 1 else m / 2 ^ sh, m % 2 ^ sh != 0) := by
      simp [quantize, hqe.not_ge]
    have hup := roundsUp_iff (r := r) (neg := neg) (q := m / 2 ^ sh) hzero hgt heq
    rw [hquantize]
    refine ⟨m / 2 ^ sh, R / 2 ^ sh, by positivity, (div_lt_one hS).mpr hlt, ?_, ?_, ?_⟩
    · rw [zpow_add₀ two_ne_zero, zpow_natCast, hR]
      field_simp
      ring
    · rw [bne_iff_ne, Ne, Ne, div_eq_zero_iff, or_iff_left hS.ne', hzero]
    · by_cases hc : CarriesUp r neg (m / 2 ^ sh) (R / 2 ^ sh)
      · exact .inr ⟨if_pos (hup.mpr hc), hc⟩
      · exact .inl ⟨if_neg (mt hup.mp hc), hc⟩

/-! ### Between two magnitudes of a format (R491) -/

/-- `X` lies at the magnitude `k`, or the part `d` of the way to the next one. -/
structure Between (f : Fmt) (X : ℝ) (k : Nat) (d : ℝ) : Prop where
  nonneg : 0 ≤ d
  lt_one : d < 1
  split : X = magValue f k + d * (magValue f (k + 1) - magValue f k)

theorem abs_negIf (neg : Bool) (x : ℝ) : |negIf neg x| = |x| := by cases neg <;> simp [negIf]

theorem cast_negIf (neg : Bool) (v : ℚ) : ((negIf neg v : ℚ) : ℝ) = negIf neg (v : ℝ) := by cases neg <;> simp [negIf]

/-- The real a significand stands for has its leading bit. -/
theorem StandsAt.bounds {m : Nat} {e q : Int} {X : ℝ} (hm : m ≠ 0) (h : StandsAt m e q X) (hq : q ≤ e + m.log2) :
    2 ^ (e + m.log2) ≤ X ∧ X < 2 ^ (e + m.log2 + 1) := by
  have hlo := Nat.log2_self_le hm
  have hhi := Nat.lt_log2_self (n := m)
  have hpos : (0 : ℝ) < 2 ^ e := by positivity
  rw [zpow_add₀ two_ne_zero, zpow_add₀ two_ne_zero, zpow_add₀ two_ne_zero, zpow_natCast, zpow_one, mul_assoc,
    ← pow_succ, mul_comm, mul_comm ((2 : ℝ) ^ e)]
  obtain rfl | ⟨hplace, hodd, hlo', hhi'⟩ := h
  · exact ⟨mul_le_mul_of_nonneg_right (by exact_mod_cast hlo) hpos.le,
      mul_lt_mul_of_pos_right (by exact_mod_cast hhi) hpos⟩
  · obtain ⟨T, hT⟩ : ∃ T, m.log2 = T + 1 := ⟨m.log2 - 1, by omega⟩
    rw [hT, pow_succ] at hlo
    rw [hT, pow_succ] at hhi
    have hlo2 : (2 : ℝ) ^ (T + 1) ≤ m - 1 := by
      rw [le_sub_iff_add_le, pow_succ]
      exact_mod_cast (show 2 ^ T * 2 + 1 ≤ m by omega)
    have hhi2 : (m : ℝ) + 1 ≤ 2 ^ (T + 1 + 1) := by
      rw [pow_succ]
      exact_mod_cast hhi
    rw [hT]
    exact ⟨(mul_le_mul_of_nonneg_right hlo2 hpos.le).trans hlo'.le,
      hhi'.trans_le (mul_le_mul_of_nonneg_right hhi2 hpos.le)⟩

/-- A quantized real lies between the magnitudes its place and its units make up, and the mode takes the same
neighbour. -/
theorem Quantized.between {f : Fmt} {r : Rm} {neg : Bool} {X : ℝ} {q : Int} {res : Nat × Bool} {j l : Nat} {d : ℝ}
    (h : Quantized r neg X q res l d) (hq : q = f.minQuantum + j) (hl : l < 2 ^ f.prec)
    (hj : j = 0 ∨ 2 ^ (f.prec - 1) ≤ l) :
    Between f X (j * 2 ^ (f.prec - 1) + l) d ∧
      TakesNeighbour r neg (j * 2 ^ (f.prec - 1) + l) d (j * 2 ^ (f.prec - 1) + res.1) := by
  have hparity : l % 2 = (j * 2 ^ (f.prec - 1) + l) % 2 := by
    rw [f.two_pow_fraction, Nat.mul_left_comm, Nat.mul_add_mod]
  constructor
  · refine ⟨h.nonneg, h.lt_one, ?_⟩
    rw [add_assoc, magValue_place f hl.le hj, magValue_place f hl (by omega), h.split, hq]
    push_cast
    ring
  · have htaken := h.taken
    unfold TakesNeighbour at htaken ⊢
    rw [← carriesUp_congr hparity]
    exact htaken.imp (And.imp_left fun hn => by rw [hn]) (And.imp_left fun hn => by rw [hn, add_assoc])

/-! ### Tininess (R491) -/

theorem minNormal_eq (f : Fmt) : minNormal f = 2 ^ f.prec * 2 ^ (f.minQuantum - 1) := by
  rw [minNormal, ← zpow_natCast, ← zpow_add₀ two_ne_zero, Fmt.minQuantum]
  congr 1
  ring

theorem gapBelowNormal_eq (f : Fmt) : gapBelowNormal f = 2 ^ (f.minQuantum - 1) := by
  rw [gapBelowNormal, minNormal, ← zpow_add₀ two_ne_zero, Fmt.minQuantum]
  congr 1
  ring

section

variable {f : Fmt} {r : Rm} {neg : Bool} {X Y : ℝ} (hX : 0 < X) (hY : X = Y * 2 ^ (f.minQuantum - 1))

include hX hY

/-- Tininess in units of the place below that of the subnormal values. -/
theorem tinyRounded_iff : tinyRounded f r (negIf neg X) ↔
    (toNearest r ∧ Y < 2 ^ f.prec - 1 / 2) ∨ (roundsAway r (negIf neg X) ∧ Y ≤ 2 ^ f.prec - 1) ∨
    (¬ toNearest r ∧ ¬ roundsAway r (negIf neg X) ∧ Y < 2 ^ f.prec) := by
  have hw : (0 : ℝ) < 2 ^ (f.minQuantum - 1) := by positivity
  have hhalf : ((minNormal f - gapBelowNormal f / 2 : ℚ) : ℝ) = (2 ^ f.prec - 1 / 2) * 2 ^ (f.minQuantum - 1) := by
    rw [minNormal_eq, gapBelowNormal_eq]; push_cast; ring
  have hone : ((minNormal f - gapBelowNormal f : ℚ) : ℝ) = (2 ^ f.prec - 1) * 2 ^ (f.minQuantum - 1) := by
    rw [minNormal_eq, gapBelowNormal_eq]; push_cast; ring
  have hzero : ((minNormal f : ℚ) : ℝ) = 2 ^ f.prec * 2 ^ (f.minQuantum - 1) := by rw [minNormal_eq]; push_cast; rfl
  rw [tinyRounded, abs_negIf, abs_of_pos hX, hhalf, hone, hzero, hY, mul_lt_mul_iff_left₀ hw, mul_lt_mul_iff_left₀ hw,
    mul_le_mul_iff_left₀ hw]

theorem tinyRounded_of_lt (h : Y < 2 ^ f.prec - 1) : tinyRounded f r (negIf neg X) := by
  rw [tinyRounded_iff hX hY]
  by_cases hn : toNearest r
  · exact .inl ⟨hn, by linarith⟩
  · by_cases ha : roundsAway r (negIf neg X)
    · exact .inr (.inl ⟨ha, h.le⟩)
    · exact .inr (.inr ⟨hn, ha, by linarith⟩)

theorem not_tinyRounded_of_le (h : 2 ^ f.prec ≤ Y) : ¬ tinyRounded f r (negIf neg X) := by
  rw [tinyRounded_iff hX hY]
  rintro (⟨-, hlt⟩ | ⟨-, hle⟩ | ⟨-, -, hlt⟩) <;> linarith

/-- In the last place below the least normal value, the value is tiny exactly if the mode does not carry it up to it. -/
theorem tinyRounded_iff_not_carriesUp {d : ℝ} (hd : 0 ≤ d) (hd1 : d < 1) (h : Y = (2 ^ f.prec - 1 : Nat) + d) :
    tinyRounded f r (negIf neg X) ↔ ¬ CarriesUp r neg (2 ^ f.prec - 1) d := by
  rw [Nat.cast_sub (Nat.two_pow_pos _), Nat.cast_pow, Nat.cast_ofNat, Nat.cast_one] at h
  have hodd : (2 ^ f.prec - 1) % 2 = 1 := by rw [f.two_pow_prec]; have := Nat.two_pow_pos (f.prec - 1); omega
  rw [tinyRounded_iff hX hY]
  by_cases hn : toNearest r
  · have ha := not_roundsAway_of_toNearest (neg := neg) hX hn
    rw [carriesUp_iff_of_odd hn hodd]
    simp only [hn, ha, true_and, false_and, not_true_eq_false, or_false, not_le]
    constructor <;> intro <;> linarith
  · by_cases ha : roundsAway r (negIf neg X)
    · rw [carriesUp_of_roundsAway hX ha, not_not]
      simp only [hn, ha, true_and, false_and, not_true_eq_false, or_false, false_or, and_false]
      exact ⟨fun hle => le_antisymm (by linarith) hd, fun h0 => by linarith⟩
    · refine iff_of_true (.inr (.inr ⟨hn, ha, by linarith⟩)) (not_carriesUp_of_toZero hX hn ha)

end

/-- The model's test for tininess: the exponent, after rounding with an unbounded one, lies below the format's. -/
theorem tiny_iff {f : Fmt} {r : Rm} {neg : Bool} {X : ℝ} {q : Int} {res : Nat × Bool} {l : Nat} {d : ℝ}
    (hX : 0 < X) (h : Quantized r neg X q res l d) (hlo : 2 ^ (f.prec - 1) ≤ l) (hhi : l < 2 ^ f.prec) :
    (if res.1 = 2 ^ f.prec then q + 1 else q) < f.minQuantum ↔ tinyRounded f r (negIf neg X) := by
  have hp := f.two_pow_prec
  have hY : X = (l + d) * 2 ^ (q - (f.minQuantum - 1)) * 2 ^ (f.minQuantum - 1) := by
    rw [mul_assoc, ← zpow_add₀ two_ne_zero, sub_add_cancel, h.split]
  have hpr : (2 : ℝ) ^ f.prec = 2 * 2 ^ (f.prec - 1) := by exact_mod_cast hp
  have hlor : (2 : ℝ) ^ (f.prec - 1) ≤ l := by exact_mod_cast hlo
  have hone : (1 : ℝ) ≤ 2 ^ (f.prec - 1) := one_le_pow₀ one_le_two
  have hhir : (l : ℝ) + 1 ≤ 2 ^ f.prec := by exact_mod_cast hhi
  have hd := h.nonneg
  have hd1 := h.lt_one
  rcases lt_trichotomy q (f.minQuantum - 1) with hq | rfl | hq
  · refine iff_of_true (by split <;> omega) (tinyRounded_of_lt hX hY ?_)
    have hscale : (2 : ℝ) ^ (q - (f.minQuantum - 1)) ≤ 2 ^ (-1 : ℤ) := zpow_le_zpow_right₀ one_le_two (by omega)
    have := mul_le_mul_of_nonneg_left hscale (show 0 ≤ (l : ℝ) + d by positivity)
    norm_num at this
    linarith
  · rcases Nat.lt_or_ge l (2 ^ f.prec - 1) with hl | hl
    · have hle : res.1 ≤ l + 1 := by rcases h.taken with ⟨hn, -⟩ | ⟨hn, -⟩ <;> omega
      refine iff_of_true (by rw [if_neg (by omega)]; omega) (tinyRounded_of_lt hX h.split ?_)
      have : (l : ℝ) + 2 ≤ 2 ^ f.prec := by exact_mod_cast (show l + 2 ≤ 2 ^ f.prec by omega)
      linarith
    · obtain rfl : l = 2 ^ f.prec - 1 := by omega
      rw [tinyRounded_iff_not_carriesUp hX h.split hd hd1 rfl]
      rcases h.taken with ⟨hn, hc⟩ | ⟨hn, hc⟩
      · exact iff_of_true (by rw [if_neg (by omega)]; omega) hc
      · exact iff_of_false (by rw [if_pos (by omega)]; omega) (not_not_intro hc)
  · refine iff_of_false (by split <;> omega) (not_tinyRounded_of_le hX hY ?_)
    have hscale : (2 : ℝ) ^ (1 : ℤ) ≤ 2 ^ (q - (f.minQuantum - 1)) := zpow_le_zpow_right₀ one_le_two (by omega)
    have := mul_le_mul_of_nonneg_left hscale (show 0 ≤ (l : ℝ) + d by positivity)
    norm_num at this
    linarith

/-! ### One rounding (R491) -/

theorem Quantized.units_lt {r : Rm} {neg : Bool} {X : ℝ} {q q' : Int} {res : Nat × Bool} {l p : Nat} {d : ℝ}
    (h : Quantized r neg X q res l d) (hX : X < 2 ^ (q' + p)) (hq : q' ≤ q) : l < 2 ^ p := by
  have hu : (0 : ℝ) < 2 ^ q := by positivity
  have hle : (2 : ℝ) ^ (q' + p) ≤ 2 ^ p * 2 ^ q := by
    rw [← zpow_natCast, ← zpow_add₀ two_ne_zero]
    exact zpow_le_zpow_right₀ one_le_two (by omega)
  rw [h.split] at hX
  have hlt := lt_of_mul_lt_mul_right (hX.trans_le hle) hu.le
  have hd := h.nonneg
  exact_mod_cast (show (l : ℝ) < 2 ^ p by linarith)

theorem Quantized.le_units {r : Rm} {neg : Bool} {X : ℝ} {q : Int} {res : Nat × Bool} {l s : Nat} {d : ℝ}
    (h : Quantized r neg X q res l d) (hX : 2 ^ (q + s) ≤ X) : 2 ^ s ≤ l := by
  have hu : (0 : ℝ) < 2 ^ q := by positivity
  rw [h.split, add_comm, zpow_add₀ two_ne_zero, zpow_natCast] at hX
  have hle := le_of_mul_le_mul_right hX hu
  have hd := h.lt_one
  exact Nat.lt_succ_iff.mp (by exact_mod_cast (show (2 : ℝ) ^ s < l + 1 by linarith))

/-- The place of the last bit of a significand's rounding, were the exponent unbounded. -/
def freePlace (f : Fmt) (m : Nat) (e : Int) : Int := e + m.log2 - (f.prec - 1)

/-- The place of the last bit of a significand's rounding in the format. -/
def placeOf (f : Fmt) (m : Nat) (e : Int) : Int := max (freePlace f m e) f.minQuantum

/-- The magnitude a rounding comes to, before it is looked at for overflow. -/
def roundedMag (f : Fmt) (r : Rm) (neg : Bool) (m : Nat) (e : Int) : Nat :=
  (placeOf f m e - f.minQuantum).toNat * 2 ^ (f.prec - 1) + (quantize r neg m e (placeOf f m e)).1

/-- The model's test for tininess. -/
def tinyTest (f : Fmt) (r : Rm) (neg : Bool) (m : Nat) (e : Int) : Bool :=
  decide ((if (quantize r neg m e (freePlace f m e)).1 = 2 ^ f.prec then freePlace f m e + 1 else freePlace f m e) <
    f.minQuantum)

/-- The flags of a rounding that does not overflow. -/
def lossFlags (tiny inexact : Bool) : Fflags := flagIf (tiny && inexact) flagUF ||| flagIf inexact flagNX

theorem roundTo_of_ne_zero (f : Fmt) (r : Rm) (neg : Bool) {m : Nat} (hm : m ≠ 0) (e : Int) : roundTo f r neg m e =
    if f.infBits ≤ roundedMag f r neg m e then overflow f r neg
    else (signed f neg (roundedMag f r neg m e),
      lossFlags (tinyTest f r neg m e) (quantize r neg m e (placeOf f m e)).2) := by
  rw [roundTo, if_neg hm]
  rfl

/-- What a rounding of the significand that stands for `X > 0` comes to: a magnitude next to `X`, the one the mode
takes, or an overflow if that is no finite one. -/
theorem roundTo_eq {f : Fmt} (r : Rm) (neg : Bool) {m : Nat} {e : Int} {X : ℝ} (hX : 0 < X) (hm : m ≠ 0)
    (h : StandsAt m e (freePlace f m e) X) :
    ∃ k d mag tiny, Between f X k d ∧ TakesNeighbour r neg k d mag ∧
      (tiny = true ↔ tinyRounded f r (negIf neg X)) ∧ ((quantize r neg m e (placeOf f m e)).2 = true ↔ d ≠ 0) ∧
      roundTo f r neg m e = if f.infBits ≤ mag then overflow f r neg
        else (signed f neg mag, lossFlags tiny (quantize r neg m e (placeOf f m e)).2) := by
  have hprec : 1 ≤ f.prec := by cases f <;> decide
  have hpred : (f.prec - 1 : ℤ) = (f.prec - 1 : Nat) := by omega
  obtain ⟨hlo, hhi⟩ := h.bounds hm (by unfold freePlace; omega)
  rw [show e + m.log2 = freePlace f m e + (f.prec - 1 : Nat) by unfold freePlace; omega] at hlo
  rw [show e + m.log2 + 1 = freePlace f m e + f.prec by unfold freePlace; omega] at hhi
  obtain ⟨l', d', hfree⟩ := quantize_quantized r neg h
  obtain ⟨l, d, hplace⟩ := quantize_quantized r neg (q := placeOf f m e) (h.mono (le_max_left _ _))
  have hj : placeOf f m e = f.minQuantum + (placeOf f m e - f.minQuantum).toNat := by unfold placeOf; omega
  have hleading : (placeOf f m e - f.minQuantum).toNat = 0 ∨ 2 ^ (f.prec - 1) ≤ l := by
    rcases le_or_gt (freePlace f m e) f.minQuantum with hle | hgt
    · exact .inl (by rw [placeOf, max_eq_right hle, sub_self]; rfl)
    · rw [placeOf, max_eq_left hgt.le] at hplace
      exact .inr (hplace.le_units hlo)
  obtain ⟨hbetween, htaken⟩ := hplace.between hj (hplace.units_lt hhi (le_max_left _ _)) hleading
  exact ⟨_, d, roundedMag f r neg m e, tinyTest f r neg m e, hbetween, htaken,
    decide_eq_true_iff.trans (tiny_iff hX hfree (hfree.le_units hlo) (hfree.units_lt hhi le_rfl)), hplace.inexact,
    roundTo_of_ne_zero f r neg hm e⟩

end Sys2Proof.Machine

/-! SUPPORT and PROOFS. Correct rounding (45_float_single.md R460, R491): the magnitude that a rounding takes is the one
the mode picks, and its flags are those of the exact value. -/

namespace Sys2Proof.Machine

/-! ### The neighbours of a real (R491) -/

section

variable {f : Fmt} {r : Rm} {neg : Bool} {X : ℝ} {k mag : Nat} {d : ℝ}

theorem magValue_cast_le {j l : Nat} : (magValue f j : ℝ) ≤ magValue f l ↔ j ≤ l := by
  rw [Rat.cast_le, (magValue_strictMono f).le_iff_le]

theorem magValue_cast_lt {j l : Nat} : (magValue f j : ℝ) < magValue f l ↔ j < l := by
  rw [Rat.cast_lt, (magValue_strictMono f).lt_iff_lt]

theorem magValue_cast_nonneg (j : Nat) : (0 : ℝ) ≤ magValue f j := Rat.cast_nonneg.mpr (magValue_nonneg f j)

theorem magValue_gap_pos : (0 : ℝ) < magValue f (k + 1) - magValue f k :=
  sub_pos.mpr (magValue_cast_lt.mpr k.lt_succ_self)

theorem Between.lower (h : Between f X k d) : magValue f k ≤ X := by
  have := mul_nonneg h.nonneg (magValue_gap_pos (f := f) (k := k)).le
  linarith [h.split]

theorem Between.upper (h : Between f X k d) : X < magValue f (k + 1) := by
  have := mul_lt_mul_of_pos_right h.lt_one (magValue_gap_pos (f := f) (k := k))
  linarith [h.split]

theorem Between.le_iff (h : Between f X k d) {j : Nat} : magValue f j ≤ X ↔ j ≤ k := by
  refine ⟨fun hle => ?_, fun hle => (magValue_cast_le.mpr hle).trans h.lower⟩
  exact Nat.lt_succ_iff.mp (magValue_cast_lt.mp (hle.trans_lt h.upper))

theorem Between.eq_lower_iff (h : Between f X k d) : X = magValue f k ↔ d = 0 := by
  rw [h.split, add_eq_left, mul_eq_zero, or_iff_left magValue_gap_pos.ne']

/-- The neighbour taken is `X` itself exactly if `X` is a magnitude. -/
theorem Between.taken_eq_iff (h : Between f X k d) (ht : TakesNeighbour r neg k d mag) :
    (magValue f mag : ℝ) = X ↔ d = 0 := by
  rcases ht with ⟨rfl, -⟩ | ⟨rfl, hc⟩
  · rw [eq_comm, h.eq_lower_iff]
  · exact iff_of_false h.upper.ne' fun h0 => not_carriesUp_zero r neg k (h0 ▸ hc)

/-! ### Overflow (R491) -/

theorem overflows_iff (hX : 0 < X) (h : Between f X k d) (ht : TakesNeighbour r neg k d mag) :
    overflows f r (negIf neg X) ↔ f.infBits ≤ mag := by
  have hmid : (((maxFinite f + pastMax f) / 2 : ℚ) : ℝ) = (magValue f (f.infBits - 1) + magValue f f.infBits) / 2 := by
    rw [magValue_infBits, magValue_infBits_pred]; push_cast; rfl
  have htop := f.infBits_pos
  rw [overflows, abs_negIf, abs_of_pos hX, hmid, ← magValue_infBits, ← magValue_infBits_pred]
  rcases lt_trichotomy k (f.infBits - 1) with hk | rfl | hk
  · have hlt : X < magValue f (f.infBits - 1) := h.upper.trans_le (magValue_cast_le.mpr hk)
    have hpred : (magValue f (f.infBits - 1) : ℝ) < magValue f f.infBits := magValue_cast_lt.mpr (by omega)
    refine iff_of_false ?_ (by unfold TakesNeighbour at ht; omega)
    rintro (⟨-, hle⟩ | ⟨-, hlt'⟩ | ⟨-, -, hle⟩) <;> linarith
  · have hsucc : f.infBits - 1 + 1 = f.infBits := by omega
    have hodd : (f.infBits - 1) % 2 = 1 := by have := f.even_infBits; omega
    have hcarry : f.infBits ≤ mag ↔ CarriesUp r neg (f.infBits - 1) d := by
      rcases ht with ⟨hm, hc⟩ | ⟨hm, hc⟩
      · exact iff_of_false (by omega) hc
      · exact iff_of_true (by omega) hc
    have hsplit := h.split
    have hd := h.nonneg
    have hupper := h.upper
    have hgap := magValue_gap_pos (f := f) (k := f.infBits - 1)
    rw [hsucc] at hsplit hupper hgap
    rw [hcarry]
    by_cases hn : toNearest r
    · simp only [hn, not_roundsAway_of_toNearest hX hn, carriesUp_iff_of_odd hn hodd, true_and, false_and,
        not_true_eq_false, or_false]
      constructor <;> intro hle <;> nlinarith
    · by_cases ha : roundsAway r (negIf neg X)
      · simp only [hn, ha, carriesUp_of_roundsAway hX ha, true_and, false_and, not_true_eq_false, or_false, false_or,
          and_false]
        exact h.lower.lt_iff_ne.trans (ne_comm.trans h.eq_lower_iff.not)
      · simp only [hn, ha, not_carriesUp_of_toZero hX hn ha, false_and, not_false_eq_true, true_and, false_or,
          iff_false, not_le, hupper]
  · have hle : magValue f f.infBits ≤ X := h.le_iff.mpr (by omega)
    have hpred : (magValue f (f.infBits - 1) : ℝ) < magValue f f.infBits := magValue_cast_lt.mpr (by omega)
    refine iff_of_true ?_ (by unfold TakesNeighbour at ht; omega)
    by_cases hn : toNearest r
    · exact .inl ⟨hn, by linarith⟩
    · by_cases ha : roundsAway r (negIf neg X)
      · exact .inr (.inl ⟨ha, by linarith⟩)
      · exact .inr (.inr ⟨hn, ha, hle⟩)

/-! ### The magnitude that a mode picks (R460) -/

/-- Of all magnitudes the neighbour that a nearest mode takes is one none is nearer than; one as near is the other
neighbour, and then `X` is halfway. -/
theorem Between.nearest (h : Between f X k d) (ht : TakesNeighbour r neg k d mag) (hn : toNearest r) (j : Nat) :
    |(magValue f mag : ℝ) - X| ≤ |(magValue f j : ℝ) - X| ∧
    (|(magValue f mag : ℝ) - X| = |(magValue f j : ℝ) - X| → j ≠ mag → d = 1 / 2 ∧ (j = k ∨ j = k + 1)) := by
  have hlo := h.lower
  have hhi := h.upper
  have hgap := magValue_gap_pos (f := f) (k := k)
  obtain ⟨hge, hlt⟩ := carriesUp_of_toNearest (neg := neg) (k := k) (d := d) hn
  have hj : (magValue f j : ℝ) < magValue f k ∨ j = k ∨ j = k + 1 ∨ (magValue f (k + 1) : ℝ) < magValue f j := by
    simp only [magValue_cast_lt]; omega
  have hsplit := h.split
  have hhalf : d = 1 / 2 ↔ 2 * (d * (magValue f (k + 1) - magValue f k)) = magValue f (k + 1) - magValue f k := by
    rw [← mul_assoc, mul_eq_right₀ hgap.ne']
    constructor <;> intro <;> linarith
  have hbelow {v : ℝ} (hv : v ≤ X) : |v - X| = X - v := by rw [abs_sub_comm, abs_of_nonneg (sub_nonneg.mpr hv)]
  have habove {v : ℝ} (hv : X ≤ v) : |v - X| = v - X := abs_of_nonneg (sub_nonneg.mpr hv)
  rw [hhalf]
  rcases ht with ⟨rfl, hc⟩ | ⟨rfl, hc⟩
  · have hd := mul_le_mul_of_nonneg_right (not_lt.mp (mt hlt hc)) hgap.le
    rw [hbelow hlo]
    rcases hj with hj | rfl | rfl | hj
    · rw [hbelow (hj.le.trans hlo)]
      exact ⟨by linarith, fun heq => by linarith⟩
    · exact ⟨(hbelow hlo).ge, fun _ hne => absurd rfl hne⟩
    · rw [habove hhi.le]
      exact ⟨by linarith, fun heq _ => ⟨by linarith, .inr rfl⟩⟩
    · rw [habove (hhi.trans hj).le]
      exact ⟨by linarith, fun heq => by linarith⟩
  · have hd := mul_le_mul_of_nonneg_right (hge hc) hgap.le
    rw [habove hhi.le]
    rcases hj with hj | rfl | rfl | hj
    · rw [hbelow (hj.le.trans hlo)]
      exact ⟨by linarith, fun heq => by linarith⟩
    · rw [hbelow hlo]
      exact ⟨by linarith, fun heq _ => ⟨by linarith, .inl rfl⟩⟩
    · exact ⟨(habove hhi.le).ge, fun _ hne => absurd rfl hne⟩
    · rw [habove (hhi.trans hj).le]
      exact ⟨by linarith, fun heq => by linarith⟩

/-- A magnitude is no farther from `X` than its values are from `X` with a sign; a value of the other sign is farther by
all of `X`. -/
theorem abs_sub_negIf (hX : 0 < X) {v : ℝ} (hv : 0 ≤ v) (s : Bool) :
    |negIf s v - negIf neg X| = if s = neg then |v - X| else v + X := by
  cases s <;> cases neg <;> simp only [negIf, if_true, if_false, Bool.false_eq_true, reduceCtorEq]
  · rw [sub_neg_eq_add, abs_of_pos (by linarith)]
  · rw [← neg_add', abs_neg, abs_of_pos (by linarith)]
  · rw [← neg_sub', abs_neg]

/-- The nearest magnitude, with the sign of `X`, is the nearest value. -/
theorem nearest_value (hX : 0 < X) {g : Nat} (hg : ∀ j, |(magValue f g : ℝ) - X| ≤ |(magValue f j : ℝ) - X|) (s : Bool)
    (j : Nat) :
    |((negIf neg (magValue f g) : ℚ) : ℝ) - negIf neg X| ≤ |((negIf s (magValue f j) : ℚ) : ℝ) - negIf neg X| ∧
    (|((negIf neg (magValue f g) : ℚ) : ℝ) - negIf neg X| = |((negIf s (magValue f j) : ℚ) : ℝ) - negIf neg X| →
      negIf s (magValue f j) ≠ negIf neg (magValue f g) →
      j ≠ g ∧ |(magValue f g : ℝ) - X| = |(magValue f j : ℝ) - X|) := by
  have hnonneg := magValue_cast_nonneg (f := f) j
  have hzero : |(magValue f g : ℝ) - X| ≤ X := by simpa [abs_of_pos hX] using hg 0
  rw [cast_negIf, cast_negIf, abs_sub_negIf hX (magValue_cast_nonneg g), abs_sub_negIf hX hnonneg, if_pos rfl]
  by_cases hs : s = neg
  · subst hs
    rw [if_pos rfl]
    exact ⟨hg j, fun heq hne => ⟨fun h => hne (by rw [h]), heq⟩⟩
  · rw [if_neg hs]
    refine ⟨by linarith, fun heq hne => ?_⟩
    have hj0 : (magValue f j : ℝ) = 0 := by linarith
    obtain rfl : j = 0 := magValue_eq_zero_iff.mp (Rat.cast_eq_zero.mp hj0)
    refine ⟨?_, by rw [hj0, zero_sub, abs_neg, abs_of_pos hX]; linarith⟩
    rintro rfl
    cases s <;> cases neg <;> simp [negIf] at hne

theorem abs_negIf_of_nonneg (s : Bool) {v : ℚ} (hv : 0 ≤ v) : |negIf s v| = v := by
  cases s <;> simp [negIf, abs_of_nonneg hv]

theorem abs_negIf_magValue (s : Bool) (j : Nat) : |negIf s (magValue f j)| = magValue f j :=
  abs_negIf_of_nonneg s (magValue_nonneg f j)

/-- The values of a format are its finite magnitudes with a sign. -/
theorem HasValue.exists_mag {b : BitVec f.width} {v : ℚ} (h : HasValue f b v) :
    ∃ s j, j < f.infBits ∧ v = negIf s (magValue f j) :=
  have ⟨hfin, hv⟩ := hasValue_iff.mp h
  ⟨_, _, hfin, hv⟩

theorem getLsbD_zero_signed {g : Nat} (hg : g < 2 ^ (f.width - 1)) :
    (signed f neg g).getLsbD 0 = decide (g % 2 = 1) := by
  have heven : (if neg then 2 ^ (f.width - 1) else 0) % 2 = 0 := by cases f <;> cases neg <;> rfl
  rw [BitVec.getLsbD, Nat.testBit_zero, toNat_signed neg hg, Nat.add_mod, heven, zero_add, Nat.mod_mod]

/-- Rounding to nearest picks the neighbour taken. -/
theorem picks_toNearest (hX : 0 < X) (h : Between f X k d) (ht : TakesNeighbour r neg k d mag) (hfin : mag < f.infBits)
    (hn : toNearest r) : Picks f r (negIf neg X) (signed f neg mag) (negIf neg (magValue f mag)) := by
  have hvalue := nearest_value (neg := neg) hX fun j => (h.nearest ht hn j).1
  rcases hn with rfl | rfl
  · intro b' v' hv'
    obtain ⟨s, j, -, rfl⟩ := hv'.exists_mag
    obtain ⟨hle, htie⟩ := hvalue s j
    refine ⟨hle, fun heq hne => ?_⟩
    obtain ⟨hj, heq'⟩ := htie heq hne
    obtain ⟨rfl, -⟩ := (h.nearest ht (.inl rfl) j).2 heq' hj
    rw [getLsbD_zero_signed (hfin.trans f.infBits_lt), decide_eq_false_iff_not]
    rcases ht with ⟨rfl, hc⟩ | ⟨rfl, hc⟩
    · exact fun hodd => hc (.inr ⟨rfl, hodd⟩)
    · have hodd : k % 2 = 1 := (hc.resolve_left (lt_irrefl _)).2
      omega
  · intro b' v' hv'
    obtain ⟨s, j, -, rfl⟩ := hv'.exists_mag
    obtain ⟨hle, htie⟩ := hvalue s j
    refine ⟨hle, fun heq => ?_⟩
    rw [abs_negIf_magValue, abs_negIf_magValue, (magValue_strictMono f).le_iff_le]
    by_cases hne : negIf s (magValue f j) = negIf neg (magValue f mag)
    · have habs := congrArg abs hne
      rw [abs_negIf_magValue, abs_negIf_magValue] at habs
      exact ((magValue_strictMono f).injective habs).le
    · obtain ⟨hj, heq'⟩ := htie heq hne
      obtain ⟨rfl, hcase⟩ := (h.nearest ht (.inr rfl) j).2 heq' hj
      rcases ht with ⟨rfl, hc⟩ | ⟨rfl, hc⟩
      · exact absurd (le_refl (1 / 2 : ℝ)) hc
      · omega

/-- Rounding away from zero picks the least magnitude that reaches `X`. -/
theorem picks_of_roundsAway (hX : 0 < X) {g : Nat} (b : BitVec f.width) (ha : roundsAway r (negIf neg X))
    (hg : X ≤ magValue f g) (hleast : ∀ j, X ≤ magValue f j → g ≤ j) :
    Picks f r (negIf neg X) b (negIf neg (magValue f g)) := by
  have hmono := (magValue_strictMono f).monotone
  rcases (roundsAway_iff hX).mp ha with ⟨rfl, rfl⟩ | ⟨rfl, rfl⟩
  · refine ⟨(cast_negIf true _).trans_le (neg_le_neg hg), fun b' v' hv' hle => ?_⟩
    obtain ⟨s, j, -, rfl⟩ := hv'.exists_mag
    rw [cast_negIf] at hle
    cases s
    case false =>
      have hle' : (magValue f j : ℝ) ≤ -X := hle
      linarith [magValue_cast_nonneg (f := f) j]
    case true => exact neg_le_neg (hmono (hleast j (neg_le_neg_iff.mp hle)))
  · refine ⟨hg, fun b' v' hv' hle => ?_⟩
    obtain ⟨s, j, -, rfl⟩ := hv'.exists_mag
    rw [cast_negIf] at hle
    cases s
    case false => exact hmono (hleast j hle)
    case true =>
      have hle' : X ≤ -(magValue f j : ℝ) := hle
      linarith [magValue_cast_nonneg (f := f) j]

/-- Rounding toward zero picks the greatest magnitude of the format that `X` reaches. -/
theorem picks_of_toZero (hX : 0 < X) {g : Nat} (b : BitVec f.width) (hn : ¬ toNearest r)
    (ha : ¬ roundsAway r (negIf neg X)) (hg : magValue f g ≤ X)
    (hgreatest : ∀ j < f.infBits, magValue f j ≤ X → j ≤ g) :
    Picks f r (negIf neg X) b (negIf neg (magValue f g)) := by
  have hmono := (magValue_strictMono f).monotone
  rw [roundsAway_iff hX] at ha
  cases r
  case rne => exact absurd (.inl rfl) hn
  case rmm => exact absurd (.inr rfl) hn
  case rtz =>
    refine ⟨?_, fun b' v' hv' hle => ?_⟩
    · rwa [cast_negIf, abs_negIf, abs_negIf, abs_of_nonneg (magValue_cast_nonneg g), abs_of_pos hX]
    · obtain ⟨s, j, hj, rfl⟩ := hv'.exists_mag
      rw [cast_negIf, abs_negIf, abs_negIf, abs_of_nonneg (magValue_cast_nonneg j), abs_of_pos hX] at hle
      rw [abs_negIf_magValue, abs_negIf_magValue]
      exact hmono (hgreatest j hj hle)
  case rdn =>
    obtain rfl : neg = false := by simpa using ha
    refine ⟨hg, fun b' v' hv' hle => ?_⟩
    obtain ⟨s, j, hj, rfl⟩ := hv'.exists_mag
    rw [cast_negIf] at hle
    cases s
    case false => exact hmono (hgreatest j hj hle)
    case true => exact (neg_nonpos.mpr (magValue_nonneg f j)).trans (magValue_nonneg f g)
  case rup =>
    obtain rfl : neg = true := by simpa using ha
    refine ⟨(cast_negIf true _).symm ▸ neg_le_neg hg, fun b' v' hv' hle => ?_⟩
    obtain ⟨s, j, hj, rfl⟩ := hv'.exists_mag
    rw [cast_negIf] at hle
    cases s
    case false => exact (neg_nonpos.mpr (magValue_nonneg f g)).trans (magValue_nonneg f j)
    case true => exact neg_le_neg (hmono (hgreatest j hj (neg_le_neg_iff.mp hle)))

/-- Every mode picks the neighbour taken, where it is finite. -/
theorem picks_taken (hX : 0 < X) (h : Between f X k d) (ht : TakesNeighbour r neg k d mag) (hfin : mag < f.infBits) :
    Picks f r (negIf neg X) (signed f neg mag) (negIf neg (magValue f mag)) := by
  by_cases hn : toNearest r
  · exact picks_toNearest hX h ht hfin hn
  by_cases ha : roundsAway r (negIf neg X)
  · have hcarry : CarriesUp r neg k d ↔ d ≠ 0 := carriesUp_of_roundsAway hX ha
    rcases ht with ⟨rfl, hc⟩ | ⟨rfl, hc⟩
    · have hX' : X = magValue f mag := h.eq_lower_iff.mpr (not_not.mp (mt hcarry.mpr hc))
      exact picks_of_roundsAway hX _ ha hX'.le fun j hj => magValue_cast_le.mp (hX' ▸ hj)
    · have hlt := h.lower.lt_of_ne' fun heq => hcarry.mp hc (h.eq_lower_iff.mp heq)
      exact picks_of_roundsAway hX _ ha h.upper.le fun j hj => magValue_cast_lt.mp (hlt.trans_le hj)
  · rcases ht with ⟨rfl, -⟩ | ⟨-, hc⟩
    · exact picks_of_toZero hX _ hn ha h.lower fun j _ hj => h.le_iff.mp hj
    · exact absurd hc (not_carriesUp_of_toZero hX hn ha)

/-! ### One rounding as a whole (R491) -/

theorem negIf_lt_zero_iff (hX : 0 < X) : negIf neg X < 0 ↔ neg = true := by
  cases neg
  · exact iff_of_false hX.not_gt nofun
  · exact iff_of_true (neg_lt_zero.mpr hX) rfl

theorem negIf_inj {α : Type} [InvolutiveNeg α] {s : Bool} {x y : α} : negIf s x = negIf s y ↔ x = y := by
  cases s <;> simp [negIf]

theorem lossFlags_bits (tiny inexact : Bool) : (lossFlags tiny inexact).getLsbD 0 = inexact ∧
    (lossFlags tiny inexact).getLsbD 1 = (tiny && inexact) ∧ (lossFlags tiny inexact).getLsbD 2 = false ∧
    (lossFlags tiny inexact).getLsbD 3 = false ∧ (lossFlags tiny inexact).getLsbD 4 = false := by
  decide +revert

theorem signOf_signed_iff (hX : 0 < X) {g : Nat} (hg : g < 2 ^ (f.width - 1)) :
    signOf f (signed f neg g) = true ↔ negIf neg X < 0 := by
  rw [signOf_signed neg hg, negIf_lt_zero_iff hX]

theorem hasValue_signed_iff {g : Nat} (hg : g < f.infBits) {v : ℚ} :
    HasValue f (signed f neg g) v ↔ v = negIf neg (magValue f g) := by
  have hlt := hg.trans f.infBits_lt
  rw [hasValue_iff, magOf_signed neg hlt, signOf_signed neg hlt, and_iff_right hg]

/-- A finite pattern is exactly `X`, with its sign, if its magnitude is. -/
theorem exists_value_eq_iff {g : Nat} (hg : g < f.infBits) :
    (∃ v, HasValue f (signed f neg g) v ∧ (v : ℝ) = negIf neg X) ↔ (magValue f g : ℝ) = X := by
  simp only [hasValue_signed_iff hg, exists_eq_left, cast_negIf, negIf_inj]

theorem isNan_signed {g : Nat} (hg : g ≤ f.infBits) : (unpack f (signed f neg g)).isNan = false := by
  rw [← Bool.not_eq_true, isNan_iff, magOf_signed neg (hg.trans_lt f.infBits_lt), not_lt]
  exact hg

theorem not_inf_signed {g : Nat} (hg : g < f.infBits) : ¬ ∃ n, unpack f (signed f neg g) = .inf n := by
  rintro ⟨n, hn⟩
  rw [unpack_eq_inf_iff, magOf_signed neg (hg.trans f.infBits_lt)] at hn
  omega

/-- A rounding that stays finite is correct. -/
theorem roundsTo_of_finite {tiny inexact : Bool} (hX : 0 < X) (h : Between f X k d) (ht : TakesNeighbour r neg k d mag)
    (hfin : mag < f.infBits) (htiny : tiny = true ↔ tinyRounded f r (negIf neg X)) (hinexact : inexact = true ↔ d ≠ 0) :
    RoundsTo f r (negIf neg X) (signed f neg mag, lossFlags tiny inexact) := by
  have hover : ¬ overflows f r (negIf neg X) := fun hov => hfin.not_ge ((overflows_iff hX h ht).mp hov)
  obtain ⟨hNX, hUF, hOF, hother⟩ := lossFlags_bits tiny inexact
  constructor <;> dsimp only
  case sign => exact signOf_signed_iff hX (hfin.trans f.infBits_lt)
  case notNan => exact isNan_signed hfin.le
  case infinite => exact iff_of_false (not_inf_signed hfin) fun hinf => hover hinf.1
  case value =>
    intro v hv
    rw [(hasValue_signed_iff hfin).mp hv]
    exact picks_taken hX h ht hfin
  case inexactFlag =>
    rw [hNX, exists_value_eq_iff hfin, h.taken_eq_iff ht, ← Bool.not_eq_true, hinexact, not_not]
  case underflowFlag => rw [hUF, hNX, Bool.and_eq_true, htiny]
  case overflowFlag =>
    rw [hOF]
    exact iff_of_false nofun hover
  case otherFlags => exact hother

/-- No value that reaches the least normal one is tiny. -/
theorem not_tinyRounded_of_magValue_le (hX : 0 < X) {g : Nat} (hg : 2 ^ (f.prec - 1) ≤ g) (hle : magValue f g ≤ X) :
    ¬ tinyRounded f r (negIf neg X) := by
  have hw : (0 : ℝ) < 2 ^ (f.minQuantum - 1) := by positivity
  have hnormal : (magValue f (2 ^ (f.prec - 1)) : ℝ) = 2 ^ f.prec * 2 ^ (f.minQuantum - 1) := by
    have hplace := magValue_place f (j := 0) (n := 2 ^ (f.prec - 1)) (by rw [f.two_pow_prec]; omega) (.inl rfl)
    have hprec : (2 : ℝ) ^ f.prec = 2 * 2 ^ (f.prec - 1) := by exact_mod_cast f.two_pow_prec
    rw [zero_mul, zero_add] at hplace
    rw [hplace, hprec, zpow_sub_one₀ two_ne_zero, Nat.cast_zero, add_zero]
    push_cast
    ring
  refine not_tinyRounded_of_le hX (Y := X / 2 ^ (f.minQuantum - 1)) (div_mul_cancel₀ _ hw.ne').symm ?_
  rw [le_div_iff₀ hw, ← hnormal]
  exact (magValue_cast_le.mpr hg).trans hle

theorem overflow_of_infinite (hX : 0 < X) (h : toNearest r ∨ roundsAway r (negIf neg X)) :
    overflow f r neg = (signed f neg f.infBits, flagOF ||| flagNX) := by
  rw [roundsAway_iff hX] at h
  rcases h with (rfl | rfl) | ⟨rfl, rfl⟩ | ⟨rfl, rfl⟩ <;> rfl

theorem overflow_of_toZero (hX : 0 < X) (hn : ¬ toNearest r) (ha : ¬ roundsAway r (negIf neg X)) :
    overflow f r neg = (signed f neg (f.infBits - 1), flagOF ||| flagNX) := by
  rw [roundsAway_iff hX] at ha
  cases r <;> cases neg <;> simp_all [toNearest, overflow]

/-- A rounding that overflows is correct. -/
theorem roundsTo_of_overflow (hX : 0 < X) (h : Between f X k d) (ht : TakesNeighbour r neg k d mag)
    (hinf : f.infBits ≤ mag) :
    RoundsTo f r (negIf neg X) (overflow f r neg) := by
  have hover := (overflows_iff hX h ht).mpr hinf
  have hk : f.infBits - 1 ≤ k := by rcases ht with ⟨hm, -⟩ | ⟨hm, -⟩ <;> omega
  have hnormal : 2 ^ (f.prec - 1) ≤ f.infBits - 1 := by cases f <;> decide
  have htiny : ¬ tinyRounded f r (negIf neg X) := not_tinyRounded_of_magValue_le hX hnormal (h.le_iff.mpr hk)
  have hpos := f.infBits_pos
  by_cases haway : toNearest r ∨ roundsAway r (negIf neg X)
  · rw [overflow_of_infinite hX haway]
    have hnone {v : ℚ} : ¬ HasValue f (signed f neg f.infBits) v := by
      rw [hasValue_iff, magOf_signed neg f.infBits_lt]
      exact fun hv => lt_irrefl _ hv.1
    constructor <;> dsimp only
    case sign => exact signOf_signed_iff hX f.infBits_lt
    case notNan => exact isNan_signed le_rfl
    case infinite =>
      have hunpack := unpack_eq_inf_iff.mpr ⟨magOf_signed neg f.infBits_lt, signOf_signed neg f.infBits_lt⟩
      exact iff_of_true ⟨neg, hunpack⟩ ⟨hover, haway⟩
    case value => exact fun v hv => absurd hv hnone
    case inexactFlag => exact iff_of_false (by decide) fun ⟨v, hv, _⟩ => hnone hv
    case underflowFlag => exact iff_of_false (by decide) fun hu => htiny hu.1
    case overflowFlag => exact iff_of_true (by decide) hover
    case otherFlags => decide
  · obtain ⟨hn, ha⟩ := not_or.mp haway
    have hfin : f.infBits - 1 < f.infBits := by omega
    have hpast : f.infBits ≤ k := by
      rcases ht with ⟨hm, -⟩ | ⟨-, hc⟩
      · omega
      · exact absurd hc (not_carriesUp_of_toZero hX hn ha)
    have hlt : (magValue f (f.infBits - 1) : ℝ) < X := (magValue_cast_lt.mpr hfin).trans_le (h.le_iff.mpr hpast)
    rw [overflow_of_toZero hX hn ha]
    constructor <;> dsimp only
    case sign => exact signOf_signed_iff hX (hfin.trans f.infBits_lt)
    case notNan => exact isNan_signed hfin.le
    case infinite => exact iff_of_false (not_inf_signed hfin) fun hi => haway hi.2
    case value =>
      intro v hv
      rw [(hasValue_signed_iff hfin).mp hv]
      exact picks_of_toZero hX _ hn ha hlt.le fun j hj _ => by omega
    case inexactFlag => exact iff_of_false (by decide) fun hv => hlt.ne ((exists_value_eq_iff hfin).mp hv)
    case underflowFlag => exact iff_of_false (by decide) fun hu => htiny hu.1
    case overflowFlag => exact iff_of_true (by decide) hover
    case otherFlags => decide

/-- A rounding of a significand that stands for `X` is a rounding of `X`. -/
theorem roundTo_roundsTo (r : Rm) (neg : Bool) {m : Nat} {e : Int} (hX : 0 < X) (hm : m ≠ 0)
    (h : StandsAt m e (freePlace f m e) X) : RoundsTo f r (negIf neg X) (roundTo f r neg m e) := by
  obtain ⟨k, d, mag, tiny, hbetween, htaken, htiny, hinexact, heq⟩ := roundTo_eq r neg hX hm h
  rw [heq]
  split
  · exact roundsTo_of_overflow hX hbetween htaken ‹_›
  · exact roundsTo_of_finite hX hbetween htaken (not_le.mp ‹_›) htiny hinexact

end

/-- Settles O44: a significand stands for its own exact value. -/
theorem roundingIsCorrect : Obligations.RoundingIsCorrect := by
  intro f r neg m e hm
  rw [exactValue_eq, cast_negIf]
  refine roundTo_roundsTo r neg (by push_cast; positivity) hm.ne' (.inl ?_)
  push_cast
  rfl

end Sys2Proof.Machine

/-! SUPPORT and PROOFS. The FPU's operations (45_float_single.md R490-R495): finite operands give the exact value
rounded once; the results for NaNs, infinities and zeros. -/

namespace Sys2Proof.Machine

/-! ### Exact values -/

theorem exactValue_eq_zero_iff {neg : Bool} {m : Nat} {e : Int} : exactValue neg m e = 0 ↔ m = 0 := by
  cases neg <;> simp [exactValue, zpow_ne_zero]

theorem exactValue_ofInt (s e : Int) : exactValue (decide (s < 0)) s.natAbs e = s * 2 ^ e := by
  rcases lt_or_ge s 0 with h | h
  · simp [exactValue, h, abs_of_neg (Int.cast_lt_zero.mpr h)]
  · simp [exactValue, h.not_gt, abs_of_nonneg (Int.cast_nonneg h)]

/-- A significand shifted to a lower place keeps its value. -/
theorem signedInt_shift_value (neg : Bool) (m : Nat) {e e' : Int} (h : e' ≤ e) :
    (signedInt neg (m <<< (e - e').toNat) : ℚ) * 2 ^ e' = exactValue neg m e := by
  obtain ⟨k, rfl⟩ := Int.le.dest h
  rw [add_sub_cancel_left, Int.toNat_natCast, Nat.shiftLeft_eq, exactValue, zpow_add₀ two_ne_zero, zpow_natCast]
  cases neg <;> simp [signedInt] <;> ring

theorem exactValue_mul (na nb : Bool) (ma mb : Nat) (ea eb : Int) :
    exactValue (na != nb) (ma * mb) (ea + eb) = exactValue na ma ea * exactValue nb mb eb := by
  rw [exactValue, zpow_add₀ two_ne_zero]
  cases na <;> cases nb <;> simp [exactValue] <;> ring

/-! ### Exact results rounded once (R491, R493, R495) -/

/-- `res` is `v` rounded once, an exact zero without a flag. -/
def RoundsOnce (g : Fmt) (r : Rm) (res : BitVec g.width × Fflags) (v : ℚ) : Prop :=
  (v ≠ 0 → ∃ neg m e, 0 < m ∧ exactValue neg m e = v ∧ res = roundTo g r neg m e) ∧
  (v = 0 → HasValue g res.1 0 ∧ res.2 = 0)

theorem hasValue_zeroOf (f : Fmt) (neg : Bool) : HasValue f (zeroOf f neg) 0 := by
  rw [zeroOf, hasValue_signed_iff f.infBits_pos, magValue_zero]
  cases neg <;> simp [negIf]

theorem RoundsOnce.zero (f : Fmt) (r : Rm) (neg : Bool) : RoundsOnce f r (zeroOf f neg, 0) 0 :=
  ⟨fun h => absurd rfl h, fun _ => ⟨hasValue_zeroOf f neg, rfl⟩⟩

@[simp] theorem roundTo_zero (f : Fmt) (r : Rm) (neg : Bool) (e : Int) : roundTo f r neg 0 e = (zeroOf f neg, 0) := rfl

theorem roundsOnce_roundTo (f : Fmt) (r : Rm) (neg : Bool) (m : Nat) (e : Int) :
    RoundsOnce f r (roundTo f r neg m e) (exactValue neg m e) := by
  rcases Nat.eq_zero_or_pos m with rfl | hm
  · rw [exactValue_eq_zero_iff.mpr rfl]
    exact .zero f r neg
  · exact ⟨fun _ => ⟨neg, m, e, hm, rfl, rfl⟩, fun h => absurd (exactValue_eq_zero_iff.mp h) hm.ne'⟩

/-- The sum of two significands at the lower of their places. -/
def alignedSum (na : Bool) (ma : Nat) (ea : Int) (nb : Bool) (mb : Nat) (eb : Int) : Int :=
  signedInt na (ma <<< (ea - min ea eb).toNat) + signedInt nb (mb <<< (eb - min ea eb).toNat)

section

variable (f : Fmt) (r : Rm) (na nb : Bool) (ma mb : Nat) (ea eb : Int)

theorem alignedSum_value :
    (alignedSum na ma ea nb mb eb : ℚ) * 2 ^ min ea eb = exactValue na ma ea + exactValue nb mb eb := by
  rw [alignedSum, Int.cast_add, add_mul, signedInt_shift_value na ma (min_le_left ea eb),
    signedInt_shift_value nb mb (min_le_right ea eb)]

theorem addFinite_eq : addFinite f r na ma ea nb mb eb =
    if alignedSum na ma ea nb mb eb = 0 then (zeroOf f (if na = nb then na else decide (r = .rdn)), 0)
    else roundTo f r (decide (alignedSum na ma ea nb mb eb < 0)) (alignedSum na ma ea nb mb eb).natAbs (min ea eb) := by
  rw [addFinite, alignedSum]

theorem alignedSum_eq_zero_iff : alignedSum na ma ea nb mb eb = 0 ↔ exactValue na ma ea + exactValue nb mb eb = 0 := by
  rw [← alignedSum_value, mul_eq_zero, or_iff_left (by positivity), Int.cast_eq_zero]

theorem addFinite_of_zero (h : exactValue na ma ea + exactValue nb mb eb = 0) :
    addFinite f r na ma ea nb mb eb = (zeroOf f (if na = nb then na else decide (r = .rdn)), 0) := by
  rw [addFinite_eq, if_pos ((alignedSum_eq_zero_iff ..).mpr h)]

theorem addFinite_roundsOnce :
    RoundsOnce f r (addFinite f r na ma ea nb mb eb) (exactValue na ma ea + exactValue nb mb eb) := by
  rw [addFinite_eq, ← alignedSum_value, ← exactValue_ofInt]
  split
  · rename_i h
    rw [h, Int.natAbs_zero, exactValue_eq_zero_iff.mpr rfl]
    exact .zero f r _
  · exact roundsOnce_roundTo ..

end

/-! ### A flipped sign (R465-R467, R469) -/

/-- The value with its sign flipped; a NaN stays as it is. -/
def FpVal.flip : FpVal → FpVal
  | .nan q => .nan q
  | .inf neg => .inf (!neg)
  | .fin neg m e => .fin (!neg) m e

theorem unpack_flipSign (f : Fmt) (b : BitVec f.width) : unpack f (flipSign f b) = (unpack f b).flip := by
  have hfrac : fracOf f (flipSign f b) = fracOf f b := by rw [fracOf_eq, fracOf_eq, magOf_flipSign]
  have hexp : expOf f (flipSign f b) = expOf f b := by rw [expOf_eq, expOf_eq, magOf_flipSign]
  simp only [unpack, hfrac, hexp, signOf_flipSign]
  split_ifs <;> rfl

theorem HasValue.flipSign {f : Fmt} {b : BitVec f.width} {y : ℚ} (h : HasValue f b y) :
    HasValue f (Machine.flipSign f b) (-y) := by
  obtain ⟨hfin, rfl⟩ := hasValue_iff.mp h
  rw [hasValue_iff, magOf_flipSign, signOf_flipSign]
  exact ⟨hfin, by cases signOf f b <;> simp [negIf]⟩

/-! ### Operations on finite operands (R490, R491, R493) -/

section

variable {f : Fmt} {a b c : BitVec f.width} {x y z : ℚ}

theorem fpuAdd_of_values (r : Rm) (ha : HasValue f a x) (hb : HasValue f b y) :
    RoundsOnce f r (fpuAdd f r a b) (x + y) ∧
    (x + y = 0 →
      fpuAdd f r a b = (zeroOf f (if signOf f a = signOf f b then signOf f a else decide (r = .rdn)), 0)) := by
  obtain ⟨ma, ea, hua, rfl, -⟩ := ha.unpack
  obtain ⟨mb, eb, hub, rfl, -⟩ := hb.unpack
  rw [fpuAdd, hua, hub]
  exact ⟨addFinite_roundsOnce .., fun h => addFinite_of_zero (h := h) ..⟩

theorem fpuSub_of_values (r : Rm) (ha : HasValue f a x) (hb : HasValue f b y) :
    RoundsOnce f r (fpuSub f r a b) (x - y) :=
  sub_eq_add_neg x y ▸ (fpuAdd_of_values r ha hb.flipSign).1

theorem fpuMul_of_values (r : Rm) (ha : HasValue f a x) (hb : HasValue f b y) :
    RoundsOnce f r (fpuMul f r a b) (x * y) ∧
    (x * y = 0 → fpuMul f r a b = (zeroOf f (signOf f a != signOf f b), 0)) := by
  obtain ⟨ma, ea, hua, rfl, -⟩ := ha.unpack
  obtain ⟨mb, eb, hub, rfl, -⟩ := hb.unpack
  rw [fpuMul, hua, hub, ← exactValue_mul]
  refine ⟨roundsOnce_roundTo .., fun h => ?_⟩
  simp [exactValue_eq_zero_iff.mp h]

theorem fpuFma_of_values (r : Rm) (ha : HasValue f a x) (hb : HasValue f b y) (hc : HasValue f c z) :
    RoundsOnce f r (fpuFma f r a b c) (x * y + z) := by
  obtain ⟨ma, ea, hua, rfl, -⟩ := ha.unpack
  obtain ⟨mb, eb, hub, rfl, -⟩ := hb.unpack
  obtain ⟨mc, ec, huc, rfl, -⟩ := hc.unpack
  rw [fpuFma, hua, hub, huc, ← exactValue_mul]
  exact addFinite_roundsOnce ..

end

/-! ### Conversions (R494, R495) -/

theorem fpuFromInt_roundsOnce (f : Fmt) (isSigned : Bool) (r : Rm) (w : Word) :
    RoundsOnce f r (fpuFromInt f isSigned r w) (if isSigned then w.toInt else w.toNat : Int) := by
  have hvalue (v : Int) : RoundsOnce f r (roundTo f r (decide (v < 0)) v.natAbs 0) v := by
    have h := roundsOnce_roundTo f r (decide (v < 0)) v.natAbs 0
    rwa [exactValue_ofInt, zpow_zero, mul_one] at h
  exact hvalue _

/-- A significand that fits the precision, in a place of the format and below the overflow, is its own rounding. -/
theorem roundTo_of_representable {f : Fmt} (r : Rm) (neg : Bool) {m : Nat} {e : Int} (hm : m < 2 ^ f.prec)
    (he : f.minQuantum ≤ e) (hlt : (m : ℚ) * 2 ^ e < pastMax f) :
    HasValue f (roundTo f r neg m e).1 (exactValue neg m e) ∧ (roundTo f r neg m e).2 = 0 := by
  rcases Nat.eq_zero_or_pos m with rfl | hpos
  · rw [exactValue_eq_zero_iff.mpr rfl]
    exact ⟨hasValue_zeroOf f neg, rfl⟩
  have hX : (0 : ℝ) < m * 2 ^ e := by positivity
  have hplace : placeOf f m e ≤ e := by
    have hlog := (Nat.log2_lt hpos.ne').mpr hm
    unfold placeOf freePlace
    omega
  have hexact : (quantize r neg m e (placeOf f m e)).2 = false := by simp [quantize, hplace]
  obtain ⟨k, d, mag, tiny, hbetween, htaken, -, hinexact, heq⟩ := roundTo_eq r neg hX hpos.ne' (.inl rfl)
  rw [hexact] at hinexact heq
  obtain rfl : d = 0 := by simpa using hinexact
  obtain ⟨rfl, -⟩ := htaken.resolve_right fun hc => not_carriesUp_zero r neg k hc.2
  have hk : (m : ℚ) * 2 ^ e = magValue f mag := by
    rw [← Rat.cast_inj (α := ℝ)]
    push_cast
    exact hbetween.eq_lower_iff.mpr rfl
  have hfin : mag < f.infBits := by
    rwa [hk, ← magValue_infBits, (magValue_strictMono f).lt_iff_lt] at hlt
  rw [heq, if_neg hfin.not_ge]
  refine ⟨?_, by cases tiny <;> rfl⟩
  rw [hasValue_signed_iff hfin, exactValue_eq, hk]

theorem HasValue.abs_lt_pastMax {f : Fmt} {b : BitVec f.width} {x : ℚ} (h : HasValue f b x) : |x| < pastMax f := by
  obtain ⟨hfin, rfl⟩ := hasValue_iff.mp h
  rw [abs_negIf_magValue, ← magValue_infBits, (magValue_strictMono f).lt_iff_lt]
  exact hfin

theorem fpuSToD_of_value {s : Word} {v : ℚ} (h : HasValue .S s v) :
    HasValue .D (fpuSToD s).1 v ∧ (fpuSToD s).2 = 0 := by
  have hlt := h.abs_lt_pastMax
  obtain ⟨m, e, hu, rfl, hm, he⟩ := HasValue.unpack (f := .S) h
  have hplace : Fmt.minQuantum .D ≤ Fmt.minQuantum .S := by decide
  have hbias : Fmt.bias .S ≤ Fmt.bias .D := by decide
  have hpast : pastMax .S ≤ pastMax .D := by
    unfold pastMax
    exact zpow_le_zpow_right₀ one_le_two ((add_le_add_iff_right 1).mpr (Int.ofNat_le.mpr hbias))
  have hnonneg : (0 : ℚ) ≤ m * 2 ^ e := mul_nonneg m.cast_nonneg (zpow_nonneg zero_le_two e)
  rw [exactValue_eq, abs_negIf_of_nonneg _ hnonneg] at hlt
  rw [fpuSToD, hu]
  exact roundTo_of_representable (f := .D) .rne _ (hm.trans (by decide)) (hplace.trans he) (hlt.trans_le hpast)

theorem fpuDToS_of_value (r : Rm) {d : DWord} {v : ℚ} (h : HasValue .D d v) : RoundsOnce .S r (fpuDToS r d) v := by
  obtain ⟨m, e, hu, rfl, -⟩ := HasValue.unpack (f := .D) h
  rw [fpuDToS, hu]
  exact roundsOnce_roundTo .S r ..

/-- An overflow is inexact. -/
theorem roundTo_inexact_of_overflow {f : Fmt} {r : Rm} {neg : Bool} {m : Nat} {e : Int} (hm : m ≠ 0)
    (h : (roundTo f r neg m e).2.getLsbD 2 = true) : (roundTo f r neg m e).2.getLsbD 0 = true := by
  rw [roundTo_of_ne_zero f r neg hm] at h ⊢
  split at h
  · rename_i hinf
    rw [if_pos hinf]
    exact (by decide : (flagOF ||| flagNX).getLsbD 0 = true)
  · exact absurd ((lossFlags_bits _ _).2.2.1.symm.trans h) (by decide)

/-- Settles O43: each operation on finite operands rounds its exact value once, and a rounding is correct. -/
theorem resultsAreRoundedOnce : Obligations.ResultsAreRoundedOnce := by
  refine ⟨fun f r a b c x y z ha hb hc => ?arithmetic, fun f r w => ?fromInt, fun s v h => fpuSToD_of_value h,
    fun r d v h => fpuDToS_of_value r h, fun f r neg m e hm => ?flags⟩
  case arithmetic =>
    exact ⟨(fpuAdd_of_values r ha hb).1, fpuSub_of_values r ha hb, (fpuMul_of_values r ha hb).1,
      fpuFma_of_values r ha hb hc⟩
  case fromInt =>
    exact ⟨fpuFromInt_roundsOnce f true r w, by exact_mod_cast fpuFromInt_roundsOnce f false r w⟩
  case flags =>
    obtain ⟨-, -, -, -, hNX, hUF, hOF, hDZ, hNV⟩ := roundingIsCorrect f r neg m e hm
    refine ⟨?_, hOF, hUF, fun h => h.elim (fun hu => (hUF.mp hu).2) (roundTo_inexact_of_overflow hm.ne'), hDZ, hNV⟩
    simpa only [Rat.cast_inj, exists_eq_right] using hNX

end Sys2Proof.Machine

/-! SUPPORT and PROOFS. The FPU's special operands (45_float_single.md R492-R497): NaNs, infinities, zeros and negative
radicands; and the floating-point instructions whose statements name them. -/

namespace Sys2Proof.Machine

/-! ### NaN operands (R492) -/

section

variable {f : Fmt} {a b c : BitVec f.width}

theorem addVal_nan_left (f : Fmt) (r : Rm) (p : Bool) (v : FpVal) :
    addVal f r (.nan p) v = nanResult f (p || v.isSnan) := by
  cases v <;> rfl

theorem addVal_nan_right (f : Fmt) (r : Rm) (v : FpVal) (q : Bool) :
    addVal f r v (.nan q) = nanResult f (v.isSnan || q) := by
  cases v <;> rfl

theorem isNan_iff_exists (v : FpVal) : v.isNan = true ↔ ∃ q, v = .nan q := by
  cases v <;> simp [FpVal.isNan]

theorem anyNan_cases (h : anyNan f a b = true) : (∃ p, unpack f a = .nan p) ∨ ∃ q, unpack f b = .nan q := by
  rw [anyNan, Bool.or_eq_true] at h
  exact h.imp (isNan_iff_exists _).mp (isNan_iff_exists _).mp

/-- With a NaN operand a sum is the canonical NaN, invalid only for a signalling one; so are the other operations. -/
theorem fpuAdd_of_nan (r : Rm) (h : anyNan f a b = true) : fpuAdd f r a b = nanResult f (anySnan f a b) := by
  rcases anyNan_cases h with ⟨p, hp⟩ | ⟨q, hq⟩
  · rw [fpuAdd, anySnan, hp, addVal_nan_left, FpVal.isSnan]
  · rw [fpuAdd, anySnan, hq, addVal_nan_right, FpVal.isSnan.eq_def (.nan q)]

theorem FpVal.flip_isNan (v : FpVal) : v.flip.isNan = v.isNan := by cases v <;> rfl

theorem FpVal.flip_isSnan (v : FpVal) : v.flip.isSnan = v.isSnan := by cases v <;> rfl

theorem fpuSub_of_nan (r : Rm) (h : anyNan f a b = true) : fpuSub f r a b = nanResult f (anySnan f a b) := by
  have hsnan : anySnan f a (flipSign f b) = anySnan f a b := by
    rw [anySnan, anySnan, unpack_flipSign, FpVal.flip_isSnan]
  rw [fpuSub, fpuAdd_of_nan r, hsnan]
  rwa [anyNan, unpack_flipSign, FpVal.flip_isNan]

theorem fpuMul_of_nan (r : Rm) (h : anyNan f a b = true) : fpuMul f r a b = nanResult f (anySnan f a b) := by
  unfold fpuMul anySnan
  rcases anyNan_cases h with ⟨p, hp⟩ | ⟨q, hq⟩
  · rw [hp]
    cases unpack f b <;> rfl
  · rw [hq]
    cases unpack f a <;> rfl

theorem fpuDiv_of_nan (r : Rm) (h : anyNan f a b = true) : fpuDiv f r a b = nanResult f (anySnan f a b) := by
  unfold fpuDiv anySnan
  rcases anyNan_cases h with ⟨p, hp⟩ | ⟨q, hq⟩
  · rw [hp]
    cases unpack f b <;> rfl
  · rw [hq]
    cases unpack f a <;> rfl

theorem fpuFma_of_nan (r : Rm) (h : anyNan f a b = true) :
    fpuFma f r a b c = nanResult f (anySnan f a b || (unpack f c).isSnan) := by
  unfold fpuFma anySnan
  rcases anyNan_cases h with ⟨p, hp⟩ | ⟨q, hq⟩
  · rw [hp]
    cases unpack f b <;> rfl
  · rw [hq]
    cases unpack f a <;> rfl

end

/-- A fused operation of two numbers is invalid, or adds the third operand to their product. -/
theorem fpuFma_of_numbers {f : Fmt} (r : Rm) {a b : BitVec f.width} (c : BitVec f.width) (h : anyNan f a b = false) :
    fpuFma f r a b c = invalid f ∨ ∃ v, v.isNan = false ∧ fpuFma f r a b c = addVal f r v (unpack f c) := by
  rw [anyNan, Bool.or_eq_false_iff] at h
  obtain ⟨ha, hb⟩ := h
  unfold fpuFma
  revert ha hb
  cases unpack f a <;> cases unpack f b <;> intro ha hb <;> simp only
  case nan.nan | nan.inf | nan.fin => cases ha
  case inf.nan | fin.nan => cases hb
  case inf.inf | fin.fin => exact .inr ⟨_, rfl, rfl⟩
  case inf.fin | fin.inf =>
    split
    · exact .inl rfl
    · exact .inr ⟨_, rfl, rfl⟩

/-! ### NaN results (R492) -/

/-- A NaN result is the canonical one. -/
def Canonical (f : Fmt) (res : BitVec f.width × Fflags) : Prop := (unpack f res.1).isNan = true → res.1 = canonicalNan f

theorem Canonical.of_number {f : Fmt} {res : BitVec f.width × Fflags} (h : (unpack f res.1).isNan = false) :
    Canonical f res :=
  fun hnan => absurd (h.symm.trans hnan) (by decide)

theorem Canonical.nanResult (f : Fmt) (q : Bool) : Canonical f (nanResult f q) := fun _ => rfl

theorem Canonical.invalid (f : Fmt) : Canonical f (invalid f) := fun _ => rfl

theorem isNan_infOf (f : Fmt) (neg : Bool) : (unpack f (infOf f neg)).isNan = false := isNan_signed le_rfl

theorem isNan_roundTo (f : Fmt) (r : Rm) (neg : Bool) (m : Nat) (e : Int) :
    (unpack f (roundTo f r neg m e).1).isNan = false := by
  rcases Nat.eq_zero_or_pos m with rfl | hm
  · exact isNan_zeroOf f neg
  · exact (roundingIsCorrect f r neg m e hm).notNan

theorem canonical_addVal (f : Fmt) (r : Rm) (v w : FpVal) : Canonical f (addVal f r v w) := by
  cases v <;> cases w <;> simp only [addVal]
  case nan.nan | nan.inf | nan.fin | inf.nan | fin.nan => exact .nanResult f _
  case inf.fin | fin.inf => exact .of_number (isNan_infOf f _)
  case inf.inf =>
    split
    · exact .of_number (isNan_infOf f _)
    · exact .invalid f
  case fin.fin =>
    rw [addFinite_eq]
    split
    · exact .of_number (isNan_zeroOf f _)
    · exact .of_number (isNan_roundTo ..)

section

variable (f : Fmt) (r : Rm) (a b c : BitVec f.width)

theorem canonical_fpuMul : Canonical f (fpuMul f r a b) := by
  unfold fpuMul
  split
  case h_1 | h_2 => exact .nanResult f _
  case h_3 => exact .of_number (isNan_infOf f _)
  case h_4 | h_5 =>
    split
    · exact .invalid f
    · exact .of_number (isNan_infOf f _)
  case h_6 => exact .of_number (isNan_roundTo ..)

theorem canonical_fpuDiv : Canonical f (fpuDiv f r a b) := by
  unfold fpuDiv
  split
  case h_1 | h_2 => exact .nanResult f _
  case h_3 => exact .invalid f
  case h_4 => exact .of_number (isNan_infOf f _)
  case h_5 => exact .of_number (isNan_zeroOf f _)
  case h_6 =>
    split_ifs
    · exact .invalid f
    · exact .of_number (isNan_infOf f _)
    · exact .of_number (isNan_roundTo ..)

theorem canonical_fpuSqrt : Canonical f (fpuSqrt f r a) := by
  unfold fpuSqrt
  split
  case h_1 => exact .nanResult f _
  case h_2 =>
    split
    · exact .invalid f
    · exact .of_number (isNan_infOf f _)
  case h_3 =>
    split
    · exact .of_number (isNan_zeroOf f _)
    · split
      · exact .invalid f
      · exact .of_number (isNan_roundTo ..)

theorem canonical_fpuFma : Canonical f (fpuFma f r a b c) := by
  cases h : anyNan f a b
  · rcases fpuFma_of_numbers r c h with heq | ⟨v, -, heq⟩ <;> rw [heq]
    · exact .invalid f
    · exact canonical_addVal f r v _
  · rw [fpuFma_of_nan r h]
    exact .nanResult f _

/-- Minimum and maximum give an operand that is a number, or the canonical NaN. -/
theorem canonical_minMax (first : Bool) (fl : Fflags) : Canonical f
    (if (unpack f a).isNan && (unpack f b).isNan then canonicalNan f
      else if (unpack f a).isNan then b
      else if (unpack f b).isNan then a
      else if first then b else a, fl) := by
  intro hnan
  dsimp only at hnan ⊢
  split_ifs at hnan ⊢ <;> simp_all

end

theorem isNan_canonicalNan (f : Fmt) : (unpack f (canonicalNan f)).isNan = true := by cases f <;> decide

/-- A conversion to another format keeps NaNs and numbers apart. -/
theorem isNan_convertTo (g : Fmt) (r : Rm) (v : FpVal) : (unpack g (convertTo g r v).1).isNan = v.isNan := by
  cases v
  case nan q => exact isNan_canonicalNan g
  case inf neg => exact isNan_infOf g neg
  case fin neg m e => exact isNan_roundTo g r neg m e

theorem convertTo_of_isNan (g : Fmt) (r : Rm) {v : FpVal} (h : v.isNan = true) :
    (convertTo g r v).1 = canonicalNan g := by
  obtain ⟨q, rfl⟩ := (isNan_iff_exists v).mp h
  rfl

theorem flagNV_bit : flagNV.getLsbD 4 = true := by decide

theorem nanResult_nv (f : Fmt) {q : Bool} (h : q = true) : (nanResult f q).2.getLsbD 4 = true := by
  subst h
  exact flagNV_bit

/-- A signalling addend makes a fused operation invalid, whatever the product is. -/
theorem fpuFma_nv_of_snan {f : Fmt} (r : Rm) (a b : BitVec f.width) {c : BitVec f.width} (h : unpack f c = .nan true) :
    (fpuFma f r a b c).2.getLsbD 4 = true := by
  cases hn : anyNan f a b
  · rcases fpuFma_of_numbers r c hn with heq | ⟨v, -, heq⟩ <;> rw [heq]
    · exact flagNV_bit
    · rw [h, addVal_nan_right]
      exact nanResult_nv f (Bool.or_true _)
  · rw [fpuFma_of_nan r hn]
    exact nanResult_nv f (by simp [h, FpVal.isSnan])

theorem isSnan_iff_eq {v : FpVal} : v.isSnan = true ↔ v = .nan true := by cases v <;> simp [FpVal.isSnan]

/-- Settles O40: with a NaN operand each operation gives the canonical NaN, and otherwise no NaN but the canonical one
of an invalid operation. -/
theorem nanRules : Obligations.NanRules := by
  intro f r a b c snan canonical nv
  refine ⟨?canonical, fun h => ?signalling, fun h => ?unary, fun h => fpuFma_nv_of_snan r a b h,
    fun h ha hb hc => ?quiet, fun ⟨x, hx⟩ ⟨y, hy⟩ hc => ?quietAddend, by decide, by decide,
    fun x => ?toDouble, fun x => ?toSingle⟩
  case canonical =>
    exact ⟨canonical_addVal f r _ _, canonical_addVal f r _ _, canonical_fpuMul f r a b, canonical_fpuDiv f r a b,
      canonical_fpuSqrt f r a, canonical_fpuFma f r a b c, canonical_minMax f a b _ _, canonical_minMax f a b _ _⟩
  case signalling =>
    have hsnan : anySnan f a b = true := by simpa [anySnan, isSnan_iff_eq] using h
    have hnan : anyNan f a b = true := by
      rw [anyNan, Bool.or_eq_true]
      exact h.imp (fun h => by rw [h]; rfl) (fun h => by rw [h]; rfl)
    have hflag : nv (flagIf (anySnan f a b) flagNV) := by rw [hsnan]; exact flagNV_bit
    rw [fpuAdd_of_nan r hnan, fpuSub_of_nan r hnan, fpuMul_of_nan r hnan, fpuDiv_of_nan r hnan, fpuFma_of_nan r hnan]
    refine ⟨hflag, hflag, hflag, hflag, nanResult_nv f (by rw [hsnan]; rfl), hflag, hflag, ?_, ?_, ?_⟩
    · rwa [fpuEq, if_pos hnan]
    · rw [fpuLt, if_pos hnan]; exact flagNV_bit
    · rw [fpuLe, if_pos hnan]; exact flagNV_bit
  case unary =>
    change unpack f a = .nan true at h
    simp only [fpuSqrt, fpuToInt, h]
    exact ⟨flagNV_bit, flagNV_bit, flagNV_bit⟩
  case quiet =>
    have hsnan (x : BitVec f.width) (hx : ¬ snan x) : (unpack f x).isSnan = false :=
      Bool.eq_false_iff.mpr (mt isSnan_iff_eq.mp hx)
    rw [fpuFma_of_nan r (by simpa [anyNan] using h), anySnan, hsnan a ha, hsnan b hb, hsnan c hc]
    rfl
  case quietAddend =>
    obtain ⟨ma, ea, hua, -⟩ := hx.unpack
    obtain ⟨mb, eb, hub, -⟩ := hy.unpack
    simp only [fpuFma, hua, hub, hc]
    rfl
  case toDouble =>
    refine ⟨by rw [fpuSToD, isNan_convertTo], fun h => convertTo_of_isNan .D .rne h, fun h => ?_⟩
    rw [fpuSToD, h]
    exact flagNV_bit
  case toSingle =>
    refine ⟨by rw [fpuDToS, isNan_convertTo], fun h => convertTo_of_isNan .S r h, fun h => ?_⟩
    rw [fpuDToS, h]
    exact flagNV_bit

/-! ### Infinities, zeros and negative radicands (R469-R472, R493, R531, R532) -/

section

variable {f : Fmt} {a b c : BitVec f.width} {x y : ℚ} {n m : Bool}

theorem HasValue.unpack_zero (h : HasValue f b 0) : ∃ e, Machine.unpack f b = .fin (signOf f b) 0 e := by
  obtain ⟨m, e, hu, hval, -⟩ := h.unpack
  obtain rfl := exactValue_eq_zero_iff.mp hval
  exact ⟨e, hu⟩

theorem HasValue.unpack_ne_zero (h : HasValue f b x) (hx : x ≠ 0) :
    ∃ m e, m ≠ 0 ∧ Machine.unpack f b = .fin (signOf f b) m e ∧ exactValue (signOf f b) m e = x ∧ m < 2 ^ f.prec := by
  obtain ⟨m, e, hu, hval, hm, -⟩ := h.unpack
  refine ⟨m, e, ?_, hu, hval, hm⟩
  rintro rfl
  exact hx (hval.symm.trans (exactValue_eq_zero_iff.mpr rfl))

theorem HasValue.signOf_of_neg (h : HasValue f a x) (hx : x < 0) : signOf f a = true := by
  obtain ⟨-, rfl⟩ := hasValue_iff.mp h
  cases hs : signOf f a
  · rw [hs] at hx
    exact absurd (magValue_nonneg f _) hx.not_ge
  · rfl

theorem HasValue.signOf_of_pos (h : HasValue f a x) (hx : 0 < x) : signOf f a = false := by
  obtain ⟨-, rfl⟩ := hasValue_iff.mp h
  cases hs : signOf f a
  · rfl
  · rw [hs] at hx
    exact absurd (neg_nonpos.mpr (magValue_nonneg f _)) hx.not_ge

/-- A zero is the pattern of its sign. -/
theorem HasValue.eq_zeroOf (h : HasValue f a 0) : a = zeroOf f (signOf f a) := by
  obtain ⟨-, hval⟩ := hasValue_iff.mp h
  have hmag : magOf f a = 0 := by
    rw [← magValue_eq_zero_iff (f := f), ← abs_negIf_magValue (signOf f a), ← hval, abs_zero]
  rw [zeroOf, ← hmag, signed_signOf_magOf]

theorem unpack_flipSign_inf (h : unpack f b = .inf n) : unpack f (flipSign f b) = .inf (!n) := by
  rw [unpack_flipSign, h, FpVal.flip]

theorem fpuAdd_inf_value (r : Rm) (ha : unpack f a = .inf n) (hb : HasValue f b y) :
    fpuAdd f r a b = (infOf f n, 0) ∧ fpuAdd f r b a = (infOf f n, 0) := by
  obtain ⟨m, e, hub, -⟩ := hb.unpack
  simp [fpuAdd, ha, hub, addVal]

theorem fpuAdd_infs (r : Rm) (ha : unpack f a = .inf n) (hb : unpack f b = .inf m) :
    fpuAdd f r a b = if n = m then (infOf f n, 0) else (canonicalNan f, flagNV) := by
  simp [fpuAdd, ha, hb, addVal, invalid]

theorem fpuMul_inf_zero (r : Rm) (ha : unpack f a = .inf n) (hb : HasValue f b 0) :
    fpuMul f r a b = (canonicalNan f, flagNV) ∧ fpuMul f r b a = (canonicalNan f, flagNV) := by
  obtain ⟨e, hub⟩ := hb.unpack_zero
  simp [fpuMul, ha, hub, invalid]

theorem fpuMul_inf_value (r : Rm) (ha : unpack f a = .inf n) (hb : HasValue f b y) (hy : y ≠ 0) :
    fpuMul f r a b = (infOf f (n != signOf f b), 0) ∧ fpuMul f r b a = (infOf f (n != signOf f b), 0) := by
  obtain ⟨m, e, hm, hub, -⟩ := hb.unpack_ne_zero hy
  simp [fpuMul, ha, hub, hm, Bool.xor_comm]

theorem fpuFma_inf_zero (r : Rm) (c : BitVec f.width) (ha : unpack f a = .inf n) (hb : HasValue f b 0) :
    fpuFma f r a b c = (canonicalNan f, flagNV) ∧ fpuFma f r b a c = (canonicalNan f, flagNV) := by
  obtain ⟨e, hub⟩ := hb.unpack_zero
  simp [fpuFma, ha, hub, invalid]

theorem fpuDiv_zeros (r : Rm) (ha : HasValue f a 0) (hb : HasValue f b 0) :
    fpuDiv f r a b = (canonicalNan f, flagNV) := by
  obtain ⟨ea, hua⟩ := ha.unpack_zero
  obtain ⟨eb, hub⟩ := hb.unpack_zero
  simp [fpuDiv, hua, hub, invalid]

theorem fpuDiv_by_zero (r : Rm) (ha : HasValue f a x) (hx : x ≠ 0) (hb : HasValue f b 0) :
    fpuDiv f r a b = (infOf f (signOf f a != signOf f b), flagDZ) := by
  obtain ⟨m, e, hm, hua, -⟩ := ha.unpack_ne_zero hx
  obtain ⟨eb, hub⟩ := hb.unpack_zero
  simp [fpuDiv, hua, hub, hm]

theorem fpuDiv_of_zero (r : Rm) (ha : HasValue f a 0) (hb : HasValue f b y) (hy : y ≠ 0) :
    fpuDiv f r a b = (zeroOf f (signOf f a != signOf f b), 0) := by
  obtain ⟨ea, hua⟩ := ha.unpack_zero
  obtain ⟨m, e, hm, hub, -⟩ := hb.unpack_ne_zero hy
  simp [fpuDiv, hua, hub, hm, stickyDiv]

theorem fpuDiv_inf_value (r : Rm) (ha : unpack f a = .inf n) (hb : HasValue f b y) :
    fpuDiv f r a b = (infOf f (n != signOf f b), 0) ∧ fpuDiv f r b a = (zeroOf f (n != signOf f b), 0) := by
  obtain ⟨m, e, hub, -⟩ := hb.unpack
  simp [fpuDiv, ha, hub, Bool.xor_comm]

theorem fpuSqrt_zero (r : Rm) (ha : HasValue f a 0) : fpuSqrt f r a = (a, 0) := by
  obtain ⟨e, hua⟩ := ha.unpack_zero
  simp only [fpuSqrt, hua, if_true]
  rw [← ha.eq_zeroOf]

theorem fpuSqrt_negative (r : Rm) (h : unpack f a = .inf true ∨ ∃ x, x < 0 ∧ HasValue f a x) :
    fpuSqrt f r a = (canonicalNan f, flagNV) := by
  rcases h with hinf | ⟨x, hx, ha⟩
  · simp [fpuSqrt, hinf, invalid]
  · obtain ⟨m, e, hm, hua, -⟩ := ha.unpack_ne_zero hx.ne
    simp [fpuSqrt, hua, hm, ha.signOf_of_neg hx, invalid]

end

/-! ### The floating-point arithmetic instructions (R464-R472, R524-R532) -/

/-- Settles O34: each instruction retires the fused operation under its rounding mode, a flipped sign being
the exclusive or with the sign bit by definition; an infinity times a zero is invalid before the addend is
looked at. -/
theorem fusedResults : Obligations.FusedResults := by
  refine ⟨⟨encodes_of_row .fmaddS, encodes_of_row .fmsubS, encodes_of_row .fnmsubS, encodes_of_row .fnmaddS,
    encodes_of_row .fmaddD, encodes_of_row .fmsubD, encodes_of_row .fnmsubD, encodes_of_row .fnmaddD⟩, ?_,
    fun f r a b c n ha hb => fpuFma_inf_zero r c ha hb⟩
  intro s rd r1 r2 r3 rm a b c x y z single double
  exact ⟨runsRounded_of_retireS rfl, runsRounded_of_retireS rfl, runsRounded_of_retireS rfl, runsRounded_of_retireS rfl,
    runsRounded_of_retireD rfl, runsRounded_of_retireD rfl, runsRounded_of_retireD rfl, runsRounded_of_retireD rfl⟩

/-- Settles O35: each instruction retires the FPU's operation under its rounding mode; the corners are the lemmas on
NaNs, infinities and zeros. -/
theorem arithmeticResults : Obligations.ArithmeticResults := by
  refine ⟨⟨encodes_of_row .faddS, encodes_of_row .fsubS, encodes_of_row .fmulS, encodes_of_row .fdivS,
    encodes_of_row .fsqrtS, encodes_of_row .faddD, encodes_of_row .fsubD, encodes_of_row .fmulD, encodes_of_row .fdivD,
    encodes_of_row .fsqrtD⟩, ?instructions, ?corners⟩
  case instructions =>
    intro s rd r1 r2 rm a b x y single double
    exact ⟨runsRounded_of_retireS rfl, runsRounded_of_retireS rfl, runsRounded_of_retireS rfl,
      runsRounded_of_retireS rfl, runsRounded_of_retireS rfl, runsRounded_of_retireD rfl, runsRounded_of_retireD rfl,
      runsRounded_of_retireD rfl, runsRounded_of_retireD rfl, runsRounded_of_retireD rfl⟩
  case corners =>
    intro f r a b
    refine ⟨fun h ha hb => ?quiet, fun h => ?quietRoot, fun n ha hb => ?oppositeInfs, fun n ha hb => ?equalInfs,
      fun x hx => ?difference, fun n ha hb => fpuMul_inf_zero r ha hb, fun ha hb => fpuDiv_zeros r ha hb,
      fun x hx ha hb => fpuDiv_by_zero r ha hx hb, fun ha => fpuSqrt_zero r ha, fun h => fpuSqrt_negative r h⟩
    case quiet =>
      have hnan : anyNan f a b = true := by simpa [anyNan] using h
      have hres : nanResult f (anySnan f a b) = (canonicalNan f, 0) := by rw [anySnan, ha, hb]; rfl
      rw [fpuAdd_of_nan r hnan, fpuSub_of_nan r hnan, fpuMul_of_nan r hnan, fpuDiv_of_nan r hnan, hres]
      exact ⟨rfl, rfl, rfl, rfl⟩
    case quietRoot =>
      simp only [fpuSqrt, h]
      rfl
    case oppositeInfs =>
      rw [fpuAdd_infs r ha hb, if_neg (by cases n <;> decide)]
    case equalInfs =>
      rw [fpuSub, fpuAdd_infs r ha (unpack_flipSign_inf hb), if_neg (by cases n <;> decide)]
    case difference =>
      rw [fpuSub, (fpuAdd_of_values r hx hx.flipSign).2 (add_neg_cancel x), signOf_flipSign, if_neg]
      exact (Bool.not_ne_self _).symm

/-! ### The conversions (R482-R485, R538, R539, R544-R547) -/

/-- A word converts to a double exactly. -/
theorem fpuFromInt_double_flags (isSigned : Bool) (r : Rm) (w : Word) : (fpuFromInt .D isSigned r w).2 = 0 := by
  have hexact (v : Int) (hv : v.natAbs < 2 ^ 32) : (roundTo .D r (decide (v < 0)) v.natAbs 0).2 = 0 := by
    have hplace : Fmt.minQuantum .D ≤ 0 := by decide
    have hbias : (32 : ℤ) ≤ (Fmt.bias .D : ℤ) + 1 := by decide
    have hpast : (2 : ℚ) ^ (32 : ℤ) ≤ pastMax .D := zpow_le_zpow_right₀ one_le_two hbias
    refine (roundTo_of_representable (f := .D) r _ (hv.trans (by decide)) hplace (lt_of_lt_of_le ?_ hpast)).2
    rw [zpow_zero, mul_one]
    exact_mod_cast hv
  refine hexact _ ?_
  have hlt := w.isLt
  cases isSigned
  · simpa using hlt
  · have hle := w.toInt_le
    have hge := w.le_toInt
    simp only [if_true]
    omega

/-- Settles O39: each instruction retires the FPU's conversion under its rounding mode. -/
theorem conversionResults : Obligations.ConversionResults := by
  refine ⟨⟨encodes_of_row .fcvtWS, encodes_of_row .fcvtWuS, encodes_of_row .fcvtSW, encodes_of_row .fcvtSWu,
    encodes_of_row .fcvtSD, encodes_of_row .fcvtDS, encodes_of_row .fcvtWD, encodes_of_row .fcvtWuD,
    encodes_of_row .fcvtDW, encodes_of_row .fcvtDWu⟩, ?_,
    fun r w => ⟨fpuFromInt_double_flags true r w, fpuFromInt_double_flags false r w⟩, by decide,
    fun r x h => convertTo_of_isNan .S r h⟩
  intro s rd r1 rm a x w single double int
  exact ⟨runsRounded_of_retireX rfl, runsRounded_of_retireX rfl, runsRounded_of_retireS rfl, runsRounded_of_retireS rfl,
    runsRounded_of_retireS rfl, runsRounded_of_retireD rfl, runsRounded_of_retireX rfl, runsRounded_of_retireX rfl,
    runsRounded_of_retireD rfl, runsRounded_of_retireD rfl⟩

end Sys2Proof.Machine

/-! SUPPORT and PROOFS. Conversion to an integer, quotients and square roots (45_float_single.md R472, R491, R494): a
quotient or root is held as a significand with enough bits and a last bit that says whether it is exact. -/

namespace Sys2Proof.Machine

/-! ### Rounding to an integer (R460, R494) -/

theorem roundToInt_intCast (r : Rm) (z : Int) : roundToInt r z = z := by
  cases r <;> simp [roundToInt]

/-- A mode's choice for a rational. -/
theorem carriesUp_ratCast {r : Rm} {neg : Bool} {l : Nat} {d : ℚ} : CarriesUp r neg l (d : ℝ) ↔
    match r with
    | .rne => 1 / 2 < d ∨ (d = 1 / 2 ∧ l % 2 = 1)
    | .rtz => False
    | .rdn => neg = true ∧ d ≠ 0
    | .rup => neg = false ∧ d ≠ 0
    | .rmm => 1 / 2 ≤ d := by
  have hhalf : ((1 / 2 : ℚ) : ℝ) = 1 / 2 := by norm_num
  cases r <;> simp only [CarriesUp, ← hhalf, Rat.cast_lt, Rat.cast_inj, Rat.cast_le, Ne, Rat.cast_eq_zero]

/-- Rounding to an integer from above a floor `z` by a part `t`. -/
theorem roundToInt_of_floor (r : Rm) (z : Int) {t : ℚ} (ht : 0 < t) (ht1 : t < 1) : roundToInt r (z + t) =
    match r with
    | .rdn => z
    | .rup => z + 1
    | .rtz => if 0 ≤ z then z else z + 1
    | .rne => if t < 1 / 2 then z else if 1 / 2 < t then z + 1 else if z % 2 = 0 then z else z + 1
    | .rmm => if t < 1 / 2 then z else if 1 / 2 < t then z + 1 else if 0 ≤ z then z + 1 else z := by
  have hfloor : ⌊(z : ℚ) + t⌋ = z := by rw [Int.floor_intCast_add, Int.floor_eq_zero_iff.mpr ⟨ht.le, ht1⟩, add_zero]
  have hceil : ⌈(z : ℚ) + t⌉ = z + 1 := by
    rw [Int.ceil_intCast_add, add_right_inj, Int.ceil_eq_iff]
    simp [ht, ht1.le]
  have hsign : 0 ≤ (z : ℚ) + t ↔ 0 ≤ z := by rw [← hfloor, Int.floor_nonneg, hfloor]
  have hlt : 2 * t < 1 ↔ t < 1 / 2 := by constructor <;> intro <;> linarith
  have hgt : 1 < 2 * t ↔ 1 / 2 < t := by constructor <;> intro <;> linarith
  cases r <;> simp only [roundToInt, hfloor, hceil, hsign, add_sub_cancel_left, hlt, hgt]

/-- Rounding a rational to an integer takes the neighbour in magnitude that the mode takes. -/
theorem roundToInt_eq {r : Rm} {neg : Bool} {l n : Nat} {d : ℚ} (hd : 0 ≤ d) (hd1 : d < 1)
    (ht : TakesNeighbour r neg l (d : ℝ) n) : roundToInt r (negIf neg ((l : ℚ) + d)) = signedInt neg n := by
  rcases hd.eq_or_lt with rfl | hpos
  · obtain ⟨rfl, -⟩ := ht.resolve_right fun hc => not_carriesUp_zero r neg l (by simpa using hc.2)
    have hint : negIf neg ((n : ℚ) + 0) = (signedInt neg n : Int) := by cases neg <;> simp [negIf, signedInt]
    rw [hint, roundToInt_intCast]
  rw [TakesNeighbour, carriesUp_ratCast] at ht
  cases neg
  on_goal 1 =>
    have hx : negIf false ((l : ℚ) + d) = ((l : Int) : ℚ) + d := rfl
    rw [hx, roundToInt_of_floor r l hpos hd1]
  on_goal 2 =>
    have hx : negIf true ((l : ℚ) + d) = ((-(l + 1) : Int) : ℚ) + (1 - d) := by
      simp [negIf]; ring
    have hlt : 1 - d < 1 / 2 ↔ 1 / 2 < d := by constructor <;> intro <;> linarith
    have hgt : 1 / 2 < 1 - d ↔ d < 1 / 2 := by constructor <;> intro <;> linarith
    rw [hx, roundToInt_of_floor r _ (by linarith) (by linarith)]
    simp only [hlt, hgt]
  all_goals
    cases r
    case rdn | rtz | rup =>
      simp [hpos.ne', signedInt] at ht ⊢
      omega
    case rne | rmm =>
      rcases lt_trichotomy d (1 / 2) with h | rfl | h
      · simp [h, h.ne, h.not_gt, h.not_ge, signedInt, -one_div] at ht ⊢
        omega
      · simp [signedInt] at ht ⊢
        omega
      · simp [h, h.ne', h.le, h.not_gt, signedInt, -one_div] at ht ⊢
        omega

theorem cast_signedInt (neg : Bool) (n : Nat) : (signedInt neg n : ℚ) = negIf neg (n : ℚ) := by
  cases neg <;> simp [signedInt, negIf]

/-- The integer a finite value is rounded to, and whether that is the value. -/
theorem quantize_roundToInt (r : Rm) (neg : Bool) (m : Nat) (e : Int) :
    signedInt neg (quantize r neg m e 0).1 = roundToInt r (exactValue neg m e) ∧
    ((quantize r neg m e 0).2 = false ↔ ((roundToInt r (exactValue neg m e) : Int) : ℚ) = exactValue neg m e) := by
  obtain ⟨l, d, hnonneg, hlt, hsplit, hinexact, htaken⟩ :=
    quantize_quantized r neg (q := 0) (.inl (rfl : (m : ℝ) * 2 ^ e = m * 2 ^ e))
  obtain ⟨D, rfl⟩ : ∃ D : ℚ, d = D := ⟨m * 2 ^ e - l, by rw [zpow_zero, mul_one] at hsplit; push_cast; linarith⟩
  have hx : exactValue neg m e = negIf neg ((l : ℚ) + D) := by
    rw [exactValue_eq]
    congr 1
    rw [← Rat.cast_inj (α := ℝ)]
    push_cast
    rwa [zpow_zero, mul_one] at hsplit
  have hD : 0 ≤ D := by exact_mod_cast hnonneg
  have hD1 : D < 1 := by exact_mod_cast hlt
  rw [hx, roundToInt_eq hD hD1 htaken, cast_signedInt, negIf_inj, ← Bool.not_eq_true, hinexact, not_not,
    Rat.cast_eq_zero]
  refine ⟨rfl, ?_⟩
  rcases htaken with ⟨hn, -⟩ | ⟨hn, hc⟩
  · rw [hn, left_eq_add]
  · refine iff_of_false (fun h0 => not_carriesUp_zero r neg l ?_) (fun h => ?_)
    · rwa [h0, Rat.cast_zero] at hc
    · rw [hn] at h
      push_cast at h
      linarith

theorem ofInt_intMin (isSigned : Bool) :
    BitVec.ofInt 32 (intMin isSigned) = if isSigned then 0x80000000 else 0x00000000 := by
  cases isSigned <;> decide

theorem ofInt_intMax (isSigned : Bool) :
    BitVec.ofInt 32 (intMax isSigned) = if isSigned then 0x7FFFFFFF else 0xFFFFFFFF := by
  cases isSigned <;> decide

/-- Settles O42: quantizing to the place of the units is rounding to an integer. -/
theorem toIntegerConversion : Obligations.ToIntegerConversion := by
  intro f isSigned r a low high least greatest
  have hleast : BitVec.ofInt 32 (intMin isSigned) = least := ofInt_intMin isSigned
  have hgreatest : BitVec.ofInt 32 (intMax isSigned) = greatest := ofInt_intMax isSigned
  have hlow : intMin isSigned = low := by cases isSigned <;> rfl
  have hhigh : intMax isSigned = high := by cases isSigned <;> rfl
  refine ⟨fun h => ?above, fun h => ?below, fun x hx => ?finite⟩
  case above =>
    rcases h with h | h
    · obtain ⟨q, hq⟩ := (isNan_iff_exists _).mp h
      simp [fpuToInt, hq, hgreatest]
    · simp [fpuToInt, h, hgreatest]
  case below => simp [fpuToInt, h, hleast]
  case finite =>
    obtain ⟨m, e, hu, rfl, -⟩ := hx.unpack
    obtain ⟨hint, hexact⟩ := quantize_roundToInt r (signOf f a) m e
    simp only [fpuToInt, hu, hint, gt_iff_lt]
    have hflag : flagIf (quantize r (signOf f a) m e 0).2 flagNX =
        if ((roundToInt r (exactValue (signOf f a) m e) : Int) : ℚ) = exactValue (signOf f a) m e then 0
        else flagNX := by
      simp only [← hexact]
      cases (quantize r (signOf f a) m e 0).2 <;> rfl
    rw [hflag, hleast, hgreatest, hlow, hhigh]

/-! ### Quotients and roots (R472, R491) -/

/-- Twice a floor, its last bit set where something is left over, stands for the real whose floor it is. -/
theorem standsAt_sticky {Q : Nat} {Y : ℝ} {whole : Prop} [Decidable whole] {e q : Int} (hexact : whole → Y = Q)
    (hlo : ¬ whole → Q < Y) (hhi : Y < Q + 1) (hq : e + 2 ≤ q) :
    StandsAt (2 * Q + if whole then 0 else 1) e q (Y * 2 ^ (e + 1)) := by
  have hpos : (0 : ℝ) < 2 ^ e := by positivity
  rw [zpow_add_one₀ two_ne_zero]
  by_cases h : whole
  · left
    rw [if_pos h, hexact h]
    push_cast
    ring
  · right
    have := hlo h
    rw [if_neg h]
    refine ⟨hq, by omega, ?_, ?_⟩ <;> push_cast <;> nlinarith

theorem stickyDiv_eq (f : Fmt) (ma mb : Nat) : stickyDiv f ma mb =
    2 * (ma * 2 ^ (2 * f.prec + 4) / mb) + if ma * 2 ^ (2 * f.prec + 4) % mb = 0 then 0 else 1 := by
  rw [stickyDiv, Nat.shiftLeft_eq]

/-- A significand of at least `p + 2` bits holds more than a rounding looks at. -/
theorem le_freePlace {f : Fmt} {m : Nat} (hm : 2 ^ (f.prec + 1) ≤ m) (e : Int) : e + 2 ≤ freePlace f m e := by
  have hpos := Nat.two_pow_pos (f.prec + 1)
  have hlog := (Nat.le_log2 (by omega : m ≠ 0)).mpr hm
  unfold freePlace
  omega

theorem cast_div_add_mod (a b : Nat) (hb : b ≠ 0) : (a : ℝ) / b = (a / b : Nat) + (a % b : Nat) / b := by
  have hb' : (b : ℝ) ≠ 0 := Nat.cast_ne_zero.mpr hb
  have h : (b : ℝ) * (a / b : Nat) + (a % b : Nat) = a := by exact_mod_cast Nat.div_add_mod a b
  rw [← h]
  field_simp

theorem le_stickyDiv (f : Fmt) {ma mb : Nat} (ha : ma ≠ 0) (hb : mb ≠ 0) (hlt : mb < 2 ^ f.prec) :
    2 ^ (f.prec + 1) ≤ stickyDiv f ma mb := by
  have hquot : 2 ^ (f.prec + 4) ≤ ma * 2 ^ (2 * f.prec + 4) / mb := by
    rw [Nat.le_div_iff_mul_le (Nat.pos_of_ne_zero hb)]
    calc 2 ^ (f.prec + 4) * mb ≤ 2 ^ (f.prec + 4) * 2 ^ f.prec := Nat.mul_le_mul_left _ hlt.le
      _ = 2 ^ (2 * f.prec + 4) := by rw [← pow_add]; congr 1; omega
      _ ≤ ma * 2 ^ (2 * f.prec + 4) := Nat.le_mul_of_pos_left _ (Nat.pos_of_ne_zero ha)
  have hmono : 2 ^ (f.prec + 1) ≤ 2 ^ (f.prec + 4) := Nat.pow_le_pow_right two_pos (by omega)
  rw [stickyDiv_eq]
  omega

/-- The quotient's significand stands for the exact quotient. -/
theorem stickyDiv_standsAt (f : Fmt) {ma mb : Nat} (ha : ma ≠ 0) (hb : mb ≠ 0) (hlt : mb < 2 ^ f.prec) (e : Int) :
    StandsAt (stickyDiv f ma mb) e (freePlace f (stickyDiv f ma mb) e)
      (((ma * 2 ^ (2 * f.prec + 4) : Nat) : ℝ) / mb * 2 ^ (e + 1)) := by
  have hplace := le_freePlace (le_stickyDiv f ha hb hlt) e
  rw [stickyDiv_eq] at hplace ⊢
  generalize ma * 2 ^ (2 * f.prec + 4) = S at hplace ⊢
  have hb' : (0 : ℝ) < mb := by exact_mod_cast Nat.pos_of_ne_zero hb
  have hrem : ((S % mb : Nat) : ℝ) < mb := by exact_mod_cast Nat.mod_lt S (Nat.pos_of_ne_zero hb)
  refine standsAt_sticky (fun h => ?_) (fun h => ?_) ?_ hplace <;> rw [cast_div_add_mod S mb hb]
  · simp [h]
  · have : (0 : ℝ) < (S % mb : Nat) := by exact_mod_cast Nat.pos_of_ne_zero h
    exact lt_add_of_pos_right _ (by positivity)
  · exact add_lt_add_right ((div_lt_one hb').mpr hrem) _

theorem negIf_div (s t : Bool) (u v : ℚ) : negIf s u / negIf t v = negIf (s != t) (u / v) := by
  cases s <;> cases t <;> simp [negIf, neg_div, div_neg]

/-- The quotient of two nonzero numbers is their exact quotient rounded once. -/
theorem fpuDiv_roundsTo {f : Fmt} (r : Rm) {a b : BitVec f.width} {x y : ℚ} (ha : HasValue f a x) (hb : HasValue f b y)
    (hx : x ≠ 0) (hy : y ≠ 0) : RoundsTo f r ((x / y : ℚ) : ℝ) (fpuDiv f r a b) := by
  obtain ⟨ma, ea, hma, hua, rfl, -⟩ := ha.unpack_ne_zero hx
  obtain ⟨mb, eb, hmb, hub, rfl, hlt⟩ := hb.unpack_ne_zero hy
  have hstands := stickyDiv_standsAt f hma hmb hlt (ea - eb - (2 * f.prec + 4 : Nat) - 1)
  have hne : stickyDiv f ma mb ≠ 0 := ((Nat.two_pow_pos _).trans_le (le_stickyDiv f hma hmb hlt)).ne'
  have hdiv : fpuDiv f r a b = roundTo f r (signOf f a != signOf f b) (stickyDiv f ma mb)
      (ea - eb - (2 * f.prec + 4 : Nat) - 1) := by
    simp only [fpuDiv, hua, hub, if_neg hmb]
  have hvalue : ((exactValue (signOf f a) ma ea / exactValue (signOf f b) mb eb : ℚ) : ℝ) =
      negIf (signOf f a != signOf f b)
        (((ma * 2 ^ (2 * f.prec + 4) : Nat) : ℝ) / mb * 2 ^ (ea - eb - (2 * f.prec + 4 : Nat) - 1 + 1)) := by
    rw [exactValue_eq, exactValue_eq, negIf_div, cast_negIf, sub_add_cancel, zpow_sub₀ two_ne_zero,
      zpow_sub₀ two_ne_zero, zpow_natCast]
    congr 1
    push_cast
    field_simp
  rw [hvalue, hdiv]
  exact roundTo_roundsTo r _ (by positivity) hne hstands

/-! ### Square roots (R472) -/

/-- The bitwise root is the floor of the root, if the bits suffice. -/
theorem isqrtFrom_spec (n : Nat) : ∀ i acc : Nat, acc * acc ≤ n → n < (acc + 2 ^ i) * (acc + 2 ^ i) →
    isqrtFrom n i acc * isqrtFrom n i acc ≤ n ∧ n < (isqrtFrom n i acc + 1) * (isqrtFrom n i acc + 1)
  | 0, acc, hlo, hhi => ⟨hlo, hhi⟩
  | i + 1, acc, hlo, hhi => by
    rw [isqrtFrom]
    split
    · rename_i h
      refine isqrtFrom_spec n i _ h ?_
      rwa [add_assoc, ← Nat.two_mul, ← Nat.pow_succ']
    · exact isqrtFrom_spec n i acc hlo (not_le.mp ‹_›)

/-- The shift that gives a root's radicand its bits and an even exponent. -/
def sqrtShift (f : Fmt) (e : Int) : Nat := 2 * f.prec + 4 + if e % 2 = 0 then 0 else 1

/-- The integer root of a shifted significand. -/
def sqrtRoot (f : Fmt) (m : Nat) (e : Int) : Nat := isqrtFrom (m * 2 ^ sqrtShift f e) (2 * f.prec + 4) 0

/-- A root's significand. -/
def stickySqrt (f : Fmt) (m : Nat) (e : Int) : Nat :=
  2 * sqrtRoot f m e + if sqrtRoot f m e * sqrtRoot f m e = m * 2 ^ sqrtShift f e then 0 else 1

theorem fpuSqrt_of_pos {f : Fmt} (r : Rm) {a : BitVec f.width} {m : Nat} {e : Int} (hm : m ≠ 0)
    (h : unpack f a = .fin false m e) :
    fpuSqrt f r a = roundTo f r false (stickySqrt f m e) ((e - sqrtShift f e) / 2 - 1) := by
  simp only [fpuSqrt, h, if_neg hm, Nat.shiftLeft_eq, Bool.false_eq_true, if_false]
  rfl

theorem sqrtRoot_spec {f : Fmt} {m : Nat} (hm : m < 2 ^ f.prec) (e : Int) :
    sqrtRoot f m e * sqrtRoot f m e ≤ m * 2 ^ sqrtShift f e ∧
    m * 2 ^ sqrtShift f e < (sqrtRoot f m e + 1) * (sqrtRoot f m e + 1) := by
  refine isqrtFrom_spec _ _ 0 (Nat.zero_le _) ?_
  have hshift : sqrtShift f e ≤ 2 * f.prec + 5 := by unfold sqrtShift; split <;> omega
  calc m * 2 ^ sqrtShift f e < 2 ^ f.prec * 2 ^ sqrtShift f e := Nat.mul_lt_mul_of_pos_right hm (Nat.two_pow_pos _)
    _ = 2 ^ (f.prec + sqrtShift f e) := (pow_add ..).symm
    _ ≤ 2 ^ (2 * f.prec + 4 + (2 * f.prec + 4)) := Nat.pow_le_pow_right two_pos (by omega)
    _ = (0 + 2 ^ (2 * f.prec + 4)) * (0 + 2 ^ (2 * f.prec + 4)) := by rw [zero_add, pow_add]

theorem le_sqrtRoot {f : Fmt} {m : Nat} (hm : m ≠ 0) (hlt : m < 2 ^ f.prec) (e : Int) :
    2 ^ (f.prec + 2) ≤ sqrtRoot f m e := by
  by_contra h
  have hupper := (sqrtRoot_spec hlt e).2
  have hsquare := Nat.mul_le_mul (not_le.mp h) (not_le.mp h)
  have hradicand : 2 ^ (f.prec + 2) * 2 ^ (f.prec + 2) ≤ m * 2 ^ sqrtShift f e := by
    rw [← pow_add]
    calc 2 ^ (f.prec + 2 + (f.prec + 2)) ≤ 2 ^ sqrtShift f e :=
        Nat.pow_le_pow_right two_pos (by unfold sqrtShift; omega)
      _ ≤ m * 2 ^ sqrtShift f e := Nat.le_mul_of_pos_left _ (Nat.pos_of_ne_zero hm)
  rw [Nat.succ_eq_add_one] at hsquare
  omega

theorem le_stickySqrt {f : Fmt} {m : Nat} (hm : m ≠ 0) (hlt : m < 2 ^ f.prec) (e : Int) :
    2 ^ (f.prec + 1) ≤ stickySqrt f m e := by
  have hroot := le_sqrtRoot hm hlt e
  have hmono : 2 ^ (f.prec + 1) ≤ 2 ^ (f.prec + 2) := Nat.pow_le_pow_right two_pos (by omega)
  unfold stickySqrt
  omega

/-- The root's significand stands for the exact root of the shifted significand. -/
theorem stickySqrt_standsAt {f : Fmt} {m : Nat} (hm : m ≠ 0) (hlt : m < 2 ^ f.prec) (e q : Int) :
    StandsAt (stickySqrt f m e) q (freePlace f (stickySqrt f m e) q)
      (Real.sqrt ((m * 2 ^ sqrtShift f e : Nat) : ℝ) * 2 ^ (q + 1)) := by
  obtain ⟨hlo, hhi⟩ := sqrtRoot_spec hlt e
  refine standsAt_sticky (fun h => ?_) (fun h => ?_) ?_ (le_freePlace (le_stickySqrt hm hlt e) q)
  · rw [← h, Nat.cast_mul, Real.sqrt_mul_self (Nat.cast_nonneg _)]
  · rw [Real.lt_sqrt (Nat.cast_nonneg _), sq]
    exact_mod_cast lt_of_le_of_ne hlo h
  · rw [Real.sqrt_lt' (by positivity), sq]
    exact_mod_cast hhi

/-- The root of a positive number is its exact root rounded once. -/
theorem fpuSqrt_roundsTo {f : Fmt} (r : Rm) {a : BitVec f.width} {x : ℚ} (ha : HasValue f a x) (hx : 0 < x) :
    RoundsTo f r (Real.sqrt (x : ℝ)) (fpuSqrt f r a) := by
  obtain ⟨m, e, hm, hu, hval, hlt⟩ := ha.unpack_ne_zero hx.ne'
  rw [ha.signOf_of_pos hx] at hu hval
  have hroot : Real.sqrt (x : ℝ) =
      negIf false (Real.sqrt ((m * 2 ^ sqrtShift f e : Nat) : ℝ) * 2 ^ ((e - sqrtShift f e) / 2 - 1 + 1)) := by
    have heven : e = sqrtShift f e + ((e - sqrtShift f e) / 2 + (e - sqrtShift f e) / 2) := by
      unfold sqrtShift
      split <;> omega
    have hx' : (x : ℝ) =
        (m * 2 ^ sqrtShift f e : Nat) * (2 ^ ((e - sqrtShift f e) / 2) * 2 ^ ((e - sqrtShift f e) / 2)) := by
      rw [← hval, exactValue]
      push_cast
      rw [← zpow_add₀ two_ne_zero, mul_assoc, ← zpow_natCast, ← zpow_add₀ two_ne_zero, ← heven]
    rw [hx', Real.sqrt_mul (Nat.cast_nonneg _), Real.sqrt_mul_self (by positivity), sub_add_cancel]
    rfl
  have hne : stickySqrt f m e ≠ 0 := ((Nat.two_pow_pos _).trans_le (le_stickySqrt hm hlt e)).ne'
  rw [fpuSqrt_of_pos r hm hu, hroot]
  exact roundTo_roundsTo r false (by positivity) hne (stickySqrt_standsAt hm hlt e _)

/-- Settles O45: the quotients and roots of finite operands from the significands that stand for them; infinities and
exact zeros by cases. -/
theorem quotientsAndRootsRound : Obligations.QuotientsAndRootsRound := by
  refine ⟨fun f r a b x y ha hb => ?finite, fun f r a b n y ha hb => ?infinite, fun f r a b n m ha hb => ?infinities⟩
  case finite =>
    refine ⟨fun hx hy => fpuDiv_roundsTo r ha hb hx hy, fun hx => fpuSqrt_roundsTo r ha hx, fun hx hy => ?_,
      (fpuMul_of_values r ha hb).2, (fpuAdd_of_values r ha hb).2⟩
    subst hx
    exact fpuDiv_of_zero r ha hb hy
  case infinite =>
    obtain ⟨hadd, hadd'⟩ := fpuAdd_inf_value r ha hb
    obtain ⟨hsub, -⟩ := fpuAdd_inf_value r ha hb.flipSign
    obtain ⟨-, hsub'⟩ := fpuAdd_inf_value r (unpack_flipSign_inf ha) hb
    obtain ⟨hdiv, hdiv'⟩ := fpuDiv_inf_value r ha hb
    exact ⟨hadd, hadd', hsub, hsub', fun hy => fpuMul_inf_value r ha hb hy, hdiv, hdiv'⟩
  case infinities =>
    refine ⟨fun hnm => ?_, ?_, ?_, fun hn => ?_⟩
    · rw [fpuAdd_infs r ha hb, if_pos hnm]
    · simp [fpuMul, ha, hb]
    · simp [fpuDiv, ha, hb, invalid]
    · simp [fpuSqrt, ha, hn]

end Sys2Proof.Machine

/-! SUPPORT and PROOFS. Double loads and stores (46_float_double.md R521-R523): the two words of an access as one access
after the other, and the fault that stops both. -/

namespace Sys2Proof.Machine

/-! ### The fault of a double access (R521) -/

section

variable (s : State) {k : AccessKind} {ea : Word}

theorem State.accessFault64_of_misaligned (h : ea.toNat % 4 ≠ 0) :
    s.accessFault64 k ea = some (.addressFault k .misaligned ea) := by
  simp [State.accessFault64, aligned, bytesOf, h]

theorem State.accessFault64_of_low_denied (h : ea.toNat % 4 = 0) (hp : permits s.cfg ea k = false) :
    s.accessFault64 k ea = some (.addressFault k .access ea) := by
  simp [State.accessFault64, aligned, bytesOf, h, hp]

theorem State.accessFault64_of_high_denied (h : ea.toNat % 4 = 0) (hp : permits s.cfg ea k = true)
    (hp' : permits s.cfg (ea + 4) k = false) : s.accessFault64 k ea = some (.addressFault k .access (ea + 4)) := by
  simpa [State.accessFault64, aligned, bytesOf, h, hp] using hp'

theorem State.accessFault64_of_permitted (h : ea.toNat % 4 = 0) (hp : permits s.cfg ea k = true)
    (hp' : permits s.cfg (ea + 4) k = true) : s.accessFault64 k ea = none := by
  simpa [State.accessFault64, aligned, bytesOf, h, hp] using hp'

end

@[simp] theorem State.startIter_accessFault64 (s : State) (k : AccessKind) (ea : Word) :
    s.startIter.accessFault64 k ea = s.accessFault64 k ea := rfl

/-! ### One access after another in an instruction -/

/-- Where the iteration's variables are as they begin, beginning it again changes nothing. -/
theorem State.startIter_eq_self {t : State} (h : t.iter = ⟨t.pc, false, false, false, some t.seq, t.cycles, t.instret⟩) :
    t.startIter = t := by
  rw [State.startIter, ← h]

theorem SameRest.trans {s t u : State} (hst : SameRest s t) (htu : SameRest t u) : SameRest s u where
  acc := htu.acc.trans hst.acc
  ctl := htu.ctl.trans hst.ctl
  driver := htu.driver.trans hst.driver
  steps := htu.steps.trans hst.steps
  cycles := htu.cycles.trans hst.cycles
  instret := htu.instret.trans hst.instret
  seq := htu.seq.trans hst.seq
  stopRequested := htu.stopRequested.trans hst.stopRequested
  heapTop := htu.heapTop.trans hst.heapTop
  recording := htu.recording.trans hst.recording
  cfg := htu.cfg.trans hst.cfg
  inbox := htu.inbox.trans hst.inbox

/-! ### Two reads (R521) -/

section

variable (s : State) (ea ea' : Word)

theorem State.startIter_afterRead : (s.startIter.afterRead ea).startIter = s.startIter.afterRead ea :=
  State.startIter_eq_self (by simp [State.startIter])

theorem State.startIter_afterRead_draws : (s.startIter.afterRead ea).draws = s.draws + loadDraws s ea :=
  s.startIter.afterRead_draws ea

/-- Only the configuration decides whether a read is a draw. -/
theorem loadDraws_afterRead : loadDraws (s.startIter.afterRead ea) ea' = loadDraws s ea' := by
  simp [loadDraws, State.readIsDraw]

/-- What a second read finds: the bytes are as before, and a draw is the next one (log 5). -/
theorem State.loadedValue_afterRead : (s.startIter.afterRead ea).loadedValue ea' .word =
    loadedWord { s with draws := s.draws + loadDraws s ea } ea' := by
  have hbyte (b : Word) : (s.startIter.afterRead ea).byteAt b = s.byteAt b :=
    State.byteAt_of_eq (by simp) (by simp) (by simp) b
  have hisDraw : (s.startIter.afterRead ea).readIsDraw ea' = s.readIsDraw ea' := by simp [State.readIsDraw]
  rw [State.loadedValue_word, loadedWord, hisDraw, State.startIter_afterRead_draws]
  simp only [hbyte]
  rfl

variable {s ea}

/-- A load after a read of the same instruction: what the read drew is added. -/
theorem SetsF.of_afterRead {t : State} {rd : Reg} {v : DWord} {fl : Fflags} {n : Nat}
    (h : SetsF (s.startIter.afterRead ea) t rd v fl n) : SetsF s t rd v fl (loadDraws s ea + n) where
  gpr r := (h.gpr r).trans (State.readX_congr (by simp) r)
  fpr r := by rw [h.fpr, State.readF_congr (t := s.startIter.afterRead ea) (s := s) (by simp)]
  csr := by simpa using h.csr
  pc := by simpa using h.pc
  memory := ⟨fun a => (h.memory.bytes a).trans (State.byteAt_of_eq (by simp) (by simp) (by simp) a),
    fun k => (h.memory.text k).trans (by simp)⟩
  rest := SameRest.trans (by constructor <;> simp) h.rest
  draws := by rw [h.draws, State.startIter_afterRead_draws, Nat.add_assoc]
  completed := h.completed

end

/-- Two reads, a floating-point register written and the advance. -/
theorem afterReads_writeF_advance (s : State) (ea ea' : Word) (rd : Reg) (v : DWord) :
    SetsF s (((s.startIter.afterRead ea).afterRead ea').writeF rd v).advance rd v 0
      (loadDraws s ea + loadDraws s ea') := by
  have hsecond := afterRead_writeF_advance (s.startIter.afterRead ea) ea' rd v
  rw [State.startIter_afterRead, loadDraws_afterRead] at hsecond
  exact hsecond.of_afterRead

/-! ### Two writes (R521) -/

/-- An offset from four bytes further on, modulo 2^32. -/
theorem toNat_sub_add_four (a b : Word) : (b - (a + 4)).toNat =
    if (b - a).toNat < 4 then (b - a).toNat + (2 ^ 32 - 4) else (b - a).toNat - 4 := by
  split <;> bv_omega

/-- Eight bytes are four and the four that follow, also across the end of the address space. -/
theorem within_eight_iff {a b : Word} : Within a 8 b ↔ Within a 4 b ∨ Within (a + 4) 4 b := by
  rw [Within, Within, Within, toNat_sub_add_four]
  split <;> omega

theorem State.startIter_rawWrite (s : State) (a v : Word) (w : Width) :
    (s.startIter.rawWrite a w v).startIter = s.startIter.rawWrite a w v :=
  State.startIter_eq_self (by simp [State.startIter])

/-- A store of four bytes after a write of the four before them, in the same instruction, is a store of eight. -/
theorem Stores.of_rawWrite {s t : State} {a v : Word} {data : Nat → Byte} (hwf : Memory.wf s.mem = true)
    (h : Stores (s.startIter.rawWrite a .word v) t (a + 4) 4 data) :
    Stores s t a 8 (fun k => if k < 4 then byteOf v k else data (k - 4)) := by
  have hkeys : keysRise s.startIter.mem = true := Memory.wf_keysRise hwf
  have hfirst (b : Word) : (s.startIter.rawWrite a .word v).byteAt b =
      if (b - a).toNat < 4 then byteOf v (b - a).toNat else s.byteAt b :=
    State.byteAt_rawWrite hkeys a v b .word
  obtain ⟨hpresent, hother⟩ := s.startIter.rawWrite_text a v .word
  have hcfg : (s.startIter.rawWrite a .word v).cfg = s.cfg := by simp
  constructor
  case inside =>
    intro b hb
    by_cases hlow : (b - a).toNat < 4
    · have hnot : ¬ Within (a + 4) 4 b := by rw [Within, toNat_sub_add_four, if_pos hlow]; omega
      rw [h.outside b hnot, hfirst]
      simp only [if_pos hlow]
    · rw [h.inside b ((within_eight_iff.mp hb).resolve_left hlow), toNat_sub_add_four]
      simp only [if_neg hlow]
  case outside =>
    intro b hb
    obtain ⟨hlow, hhigh⟩ := not_or.mp (mt within_eight_iff.mpr hb)
    rw [h.outside b hhigh, hfirst]
    exact if_neg hlow
  case present =>
    intro b hb hexec
    by_cases hagain : ∃ c, Within (a + 4) 4 c ∧ executableAt s.cfg.memMap c = true ∧ textKey c = textKey b
    · obtain ⟨c, hc, hcexec, hkey⟩ := hagain
      rw [← hkey]
      exact h.present c hc (by rwa [hcfg])
    · have hlow : Within a 4 b := (within_eight_iff.mp hb).resolve_right fun hhigh => hagain ⟨b, hhigh, hexec, rfl⟩
      rw [h.otherText _ fun c hc hcexec hkey => hagain ⟨c, hc, by rwa [hcfg] at hcexec, hkey⟩]
      exact hpresent b hlow hexec
  case otherText =>
    intro k hk
    rw [h.otherText k fun c hc hcexec => hk c (within_eight_iff.mpr (.inr hc)) (by rwa [hcfg] at hcexec)]
    exact hother k fun c hc hcexec => hk c (within_eight_iff.mpr (.inl hc)) hcexec
  case gpr => exact fun r => (h.gpr r).trans (State.readX_congr (by simp) r)
  case fpr => exact fun r => (h.fpr r).trans (State.readF_congr (by simp) r)
  case csr => simpa using h.csr
  case pc => simpa using h.pc
  case rest => exact SameRest.trans (by constructor <;> simp) h.rest
  case draws => simpa using h.draws
  case completed => exact h.completed

/-- The bytes of a register's high word are its own high bytes. -/
theorem byteOf_high (v : DWord) {k : Nat} (hk : k < 4) :
    byteOf (v.extractLsb' 32 32) k = v.extractLsb' (8 * (k + 4)) 8 := by
  refine BitVec.eq_of_getLsbD_eq fun i hi => ?_
  have hhigh : 8 * k + i < 32 := by omega
  simp [byteOf, hi, hhigh, show 32 + (8 * k + i) = 8 * (k + 4) + i by omega]

/-- The two words of a register written one after the other, and the advance. -/
theorem rawWrites_advance {s : State} (hwf : Memory.wf s.mem = true) (ea : Word) (v : DWord) :
    Stores s ((s.startIter.rawWrite ea .word (v.extractLsb' 0 32)).rawWrite (ea + 4) .word
      (v.extractLsb' 32 32)).advance ea 8 (fun k => v.extractLsb' (8 * k) 8) := by
  have hsecond := rawWrite_advance (s := s.startIter.rawWrite ea .word (v.extractLsb' 0 32))
    (State.rawWrite_wf (by simpa using hwf) ea .word _) (ea + 4) (v.extractLsb' 32 32) .word
  rw [State.startIter_rawWrite] at hsecond
  refine (hsecond.of_rawWrite hwf).congr_data fun k hk => ?_
  split
  case isTrue hlow => exact byteOf_low v hlow
  case isFalse hlow => rw [byteOf_high v (by omega), Nat.sub_add_cancel (by omega)]

/-! ### Double loads and stores (R522, R523) -/

section

variable {s : State} {rd rs1 rs2 : Reg} {imm : BitVec 12}

theorem runs_fld (hfault : s.accessFault64 .read (s.effAddr rs1 imm) = none) :
    Runs (.fld rd rs1 imm) s (fun t => SetsF s t rd
      (loadedWord { s with draws := s.draws + loadDraws s (s.effAddr rs1 imm) } (s.effAddr rs1 imm + 4) ++
        loadedWord s (s.effAddr rs1 imm)) 0
      (loadDraws s (s.effAddr rs1 imm) + loadDraws s (s.effAddr rs1 imm + 4))) := by
  refine ⟨_, ?_, afterReads_writeF_advance s (s.effAddr rs1 imm) (s.effAddr rs1 imm + 4) rd _⟩
  rw [← s.loadedValue_word, ← State.loadedValue_afterRead]
  change execFld rd rs1 imm s = _
  rw [execFld, State.read64, State.startIter_accessFault64, hfault]
  rfl

theorem traps_fld {e : Exc} (hidle : SyncIdle s) (hfault : s.accessFault64 .read (s.effAddr rs1 imm) = some e) :
    Traps (.fld rd rs1 imm) s e := by
  refine traps_of_raise ?_ hidle
  change execFld rd rs1 imm s = _
  rw [execFld, State.read64, State.startIter_accessFault64, hfault]

theorem runs_fsd (hwf : Memory.wf s.mem = true) (hfault : s.accessFault64 .write (s.effAddr rs1 imm) = none) :
    Runs (.fsd rs1 rs2 imm) s (fun t =>
      Stores s t (s.effAddr rs1 imm) 8 (fun k => (s.readF rs2).extractLsb' (8 * k) 8)) := by
  refine ⟨_, ?_, rawWrites_advance hwf (s.effAddr rs1 imm) (s.readF rs2)⟩
  change execFsd rs1 rs2 imm s = _
  rw [execFsd, State.write64, State.startIter_accessFault64, hfault]
  rfl

theorem traps_fsd {e : Exc} (hidle : SyncIdle s) (hfault : s.accessFault64 .write (s.effAddr rs1 imm) = some e) :
    Traps (.fsd rs1 rs2 imm) s e := by
  refine traps_of_raise ?_ hidle
  change execFsd rs1 rs2 imm s = _
  rw [execFsd, State.write64, State.startIter_accessFault64, hfault]

end

/-- Settles O29: each encoding is a row of the table; the one fault of both words decides, and without one the access is
two word accesses in turn. -/
theorem doubleLoadStore : Obligations.DoubleLoadStore := by
  refine ⟨⟨encodes_of_row .fld, encodes_of_row .fsd⟩, ?_⟩
  intro s rd rs1 rs2 imm ea
  refine ⟨fun h => ⟨fun hp hp' => ?fld, fun hwf hp hp' => ?fsd, fun hidle => ⟨fun hp => ?fldLow, fun hp hp' => ?fldHigh,
    fun hp => ?fsdLow, fun hp hp' => ?fsdHigh⟩⟩, fun h hidle => ?misaligned⟩
  case fld => exact runs_fld (s.accessFault64_of_permitted h hp hp')
  case fsd => exact runs_fsd hwf (s.accessFault64_of_permitted h hp hp')
  case fldLow => exact traps_fld hidle (s.accessFault64_of_low_denied h hp)
  case fldHigh => exact traps_fld hidle (s.accessFault64_of_high_denied h hp hp')
  case fsdLow => exact traps_fsd hidle (s.accessFault64_of_low_denied h hp)
  case fsdHigh => exact traps_fsd hidle (s.accessFault64_of_high_denied h hp hp')
  case misaligned =>
    exact ⟨traps_fld hidle (s.accessFault64_of_misaligned h), traps_fsd hidle (s.accessFault64_of_misaligned h)⟩

end Sys2Proof.Machine

/-! SUPPORT and PROOFS. The exceptions family (60_exceptions.md): the controller, the taking of a trap or an interrupt,
the end of an iteration, the host's commands, and undo. -/

namespace Sys2Proof.Machine

/-! ### The controller (R610-R614) -/

theorem Controller.irq_setIrq_same (c : Controller) (k : IrqKind) (r : Option Word) : (c.setIrq k r).irq k = r := by
  cases k <;> rfl

theorem Controller.irq_setIrq_of_ne (c : Controller) {j k : IrqKind} (h : j ≠ k) (r : Option Word) :
    (c.setIrq k r).irq j = c.irq j := by
  cases j <;> cases k
  case external.timer | timer.external => rfl
  all_goals exact absurd rfl h

theorem Controller.registerIrq_of_idle {c : Controller} {k : IrqKind} (h : c.irq k = none) (p : Word) :
    c.registerIrq k p = ({ c.setIrq k (some p) with checkRequested := true }, true) := by
  simp [Controller.registerIrq, h]

theorem Controller.registerIrq_of_pending {c : Controller} {k : IrqKind} {q : Word} (h : c.irq k = some q) (p : Word) :
    c.registerIrq k p = (c, false) := by
  simp [Controller.registerIrq, h]

theorem Controller.claimIrq_of_idle {c : Controller} {k : IrqKind} (h : c.irq k = none) : c.claimIrq k = none := by
  simp [Controller.claimIrq, h]

theorem Controller.claimIrq_of_pending {c : Controller} {k : IrqKind} {q : Word} (h : c.irq k = some q) :
    c.claimIrq k = some (q, c.setIrq k none) := by
  simp [Controller.claimIrq, h]

/-- The flag of R101 is no part of a record. -/
theorem Controller.irq_of_eq {c d : Controller} (he : d.external = c.external) (ht : d.timer = c.timer) (k : IrqKind) :
    d.irq k = c.irq k := by
  cases k
  · exact he
  · exact ht

/-- Settles O49: for each kind of record, what registering and claiming come to while it is idle and while it is
pending. -/
theorem singlePending : Obligations.SinglePending := by
  intro c k p r
  refine ⟨fun hidle => ?_, fun q hq => ?_, Controller.claimIrq_of_idle, fun hidle => ?_, fun q hq => ?_⟩
  · rw [Controller.registerIrq_of_idle hidle]
    refine ⟨rfl, ?_, fun j hj => ?_, c.setIrq_sync k (some p)⟩
    · exact (Controller.irq_of_eq rfl rfl k).trans (c.irq_setIrq_same k (some p))
    · exact (Controller.irq_of_eq rfl rfl j).trans (c.irq_setIrq_of_ne hj (some p))
  · exact ⟨Controller.registerIrq_of_pending hq p, _, Controller.claimIrq_of_pending hq, c.irq_setIrq_same k none,
      fun j hj => c.irq_setIrq_of_ne hj none, c.setIrq_sync k none⟩
  · refine ⟨⟨{ c with sync := some r }, by simp [Controller.registerSync, hidle], rfl, ?_⟩,
      by simp [Controller.claimSync, hidle]⟩
    exact Controller.irq_of_eq rfl rfl
  · refine ⟨by simp [Controller.registerSync, hq], { c with sync := none }, by simp [Controller.claimSync, hq], rfl, ?_⟩
    exact Controller.irq_of_eq rfl rfl

/-! ### Taking a synchronous exception (R600, R601, R629-R631) -/

/-- Settles O47: the two tables by evaluation, and the delivery as `trapped_spec` gives it. -/
theorem trapDelivery : Obligations.TrapDelivery :=
  ⟨fun _ _ _ => ⟨rfl, rfl, rfl, rfl, rfl, rfl, rfl, rfl, rfl, rfl, fun _ _ => rfl⟩,
    fun e s hidle => ⟨s.trapped e, takeException_of_syncIdle hidle e, s.trapped_spec e⟩⟩

/-! ### Entering an interrupt (R632, R633) -/

/-- MODE is 1, read off `utvec` as a field (R90). -/
theorem and_three_eq_one_iff (u : Word) : u &&& 3 = 1 ↔ u.extractLsb' 0 2 = 0b01 := by
  have h : (u &&& 3).toNat = (u.extractLsb' 0 2).toNat := by
    rw [BitVec.toNat_and, BitVec.extractLsb'_toNat]
    exact Nat.and_two_pow_sub_one_eq_mod u.toNat 2
  rw [← BitVec.toNat_inj, ← BitVec.toNat_inj, h]
  rfl

theorem State.interruptTarget_eq (s : State) (code : Word) : s.interruptTarget code = vectorOf s.csr.utvec code := by
  simp only [State.interruptTarget, vectorOf, State.trapBase, and_three_eq_one_iff]

/-- UPIE raised and UIE cleared, and no other bit of `ustatus` (R632). -/
theorem interruptStatus_eq (a : Word) : (a &&& ~~~(0x11 : Word)) ||| (((a &&& ~~~(0x11 : Word)) ||| 0x10) &&& 0x11) =
    (a &&& ~~~(0x11 : Word)) ||| 0x10 := by
  rw [BitVec.and_or_distrib_right, BitVec.and_assoc, show ~~~(0x11 : Word) &&& 0x11 = 0 from by decide]
  simp

/-- An interrupt with a handler at its target (R632). -/
theorem State.interruptEntry_of_handler {s : State} {code : Word} (h : HandlerAt s (vectorOf s.csr.utvec code))
    (p : Word) : s.interruptEntry code p =
    (let s1 := s.writeTrapRecord (0x80000000 ||| code) s.pc p
     (s1.csrWrite .ustatus ((s1.csrRead .ustatus &&& ~~~(0x11 : Word)) ||| 0x10)).writePc
        (vectorOf s.csr.utvec code)) := by
  rw [← s.interruptTarget_eq, ← handlerOk_iff] at h
  rw [State.interruptEntry, if_pos h, s.interruptTarget_eq]

/-- An interrupt with no handler at its target (R633). -/
theorem State.interruptEntry_of_no_handler {s : State} {code : Word} (h : ¬ HandlerAt s (vectorOf s.csr.utvec code))
    (p : Word) : s.interruptEntry code p =
    (s.writeTrapRecord (0x80000000 ||| code) s.pc p).stop (.exception .interrupt code p s.pc) := by
  rw [← s.interruptTarget_eq, ← handlerOk_iff] at h
  rw [State.interruptEntry, if_neg h]

/-- What entering an interrupt leaves (R632, R633). -/
theorem State.interruptEntry_spec (s : State) (code p : Word) : Entered s (s.interruptEntry code p) code p where
  taken h := by
    rw [s.interruptEntry_of_handler h]
    refine ⟨by simp, by simp, ?_⟩
    simp only [State.writePc_csr, State.csrWrite_csr, State.csrRead_eq, State.writeTrapRecord_csr, csrWritten, csrShown,
      Csrs.get, interruptStatus_eq]
  noHandler h := by
    rw [s.interruptEntry_of_no_handler h]
    exact ⟨by simp, rfl, s.writeTrapRecord_csr _ _ _⟩
  gpr r := State.readX_congr (by simp) r
  fpr r := State.readF_congr (by simp) r
  memory := .of_eq (by simp) (by simp) (by simp)
  acc := by simp
  ctl := by simp
  counts := by simp
  kept := by simp

/-! ### The one event of a boundary (R624, R625) -/

/-- An enabled interrupt is let through (R87, R624). -/
def State.Enabled (s : State) (bit : Nat) : Prop := s.csr.ustatus.getLsbD 0 = true ∧ s.csr.uie.getLsbD bit = true

/-- The external interrupt is due (R624). -/
def State.ExternalDue (s : State) : Prop := s.Enabled 8 ∧ s.ctl.external ≠ none

/-- The software interrupt is due (R624). -/
def State.SoftwareDue (s : State) : Prop :=
  s.cfg.usipDelivery = true ∧ s.Enabled 0 ∧ s.csr.uip.getLsbD 0 = true

/-- The timer interrupt is due (R624). -/
def State.TimerDue (s : State) : Prop := s.Enabled 4 ∧ s.ctl.timer ≠ none

theorem State.external_test_iff (s : State) :
    (s.uie && s.csr.uie.getLsbD 8 && s.ctl.external.isSome) = true ↔ s.ExternalDue := by
  simp [State.uie, State.ExternalDue, State.Enabled, Option.isSome_iff_ne_none]

theorem State.software_test_iff (s : State) :
    (s.cfg.usipDelivery && s.uie && s.csr.uie.getLsbD 0 && s.csr.uip.getLsbD 0) = true ↔ s.SoftwareDue := by
  simp [State.uie, State.SoftwareDue, State.Enabled, and_assoc]

theorem State.timer_test_iff (s : State) :
    (s.uie && s.csr.uie.getLsbD 4 && s.ctl.timer.isSome) = true ↔ s.TimerDue := by
  simp [State.uie, State.TimerDue, State.Enabled, Option.isSome_iff_ne_none]

section

variable {s : State}

theorem State.serviceIrq_of_raised (h : s.iter.raised = true) : s.serviceIrq = s := if_pos h

/-- A pending record is claimed and its interrupt entered. -/
theorem State.takeIrq_of_pending {k : IrqKind} {p : Word} (h : s.ctl.irq k = some p) (code : Word) :
    s.takeIrq k code = { s with ctl := s.ctl.setIrq k none }.interruptEntry code p := by
  simp [State.takeIrq, Controller.claimIrq_of_pending h]

variable (hr : s.iter.raised = false)
include hr

theorem State.serviceIrq_of_external {p : Word} (he : s.ExternalDue) (hp : s.ctl.external = some p) :
    s.serviceIrq = { s with ctl := { s.ctl with external := none } }.interruptEntry 8 p := by
  rw [State.serviceIrq, if_neg (by simp [hr]), if_pos (s.external_test_iff.mpr he)]
  exact State.takeIrq_of_pending (k := .external) hp 8

theorem State.serviceIrq_of_software (he : ¬ s.ExternalDue) (hs : s.SoftwareDue) :
    s.serviceIrq = (s.csrWrite .uip (s.csr.uip &&& ~~~(1 : Word))).interruptEntry 0 0 := by
  rw [State.serviceIrq, if_neg (by simp [hr]), if_neg (mt s.external_test_iff.mp he),
    if_pos (s.software_test_iff.mpr hs)]
  rfl

theorem State.serviceIrq_of_timer {p : Word} (he : ¬ s.ExternalDue) (hs : ¬ s.SoftwareDue) (ht : s.TimerDue)
    (hp : s.ctl.timer = some p) : s.serviceIrq = { s with ctl := { s.ctl with timer := none } }.interruptEntry 4 p := by
  rw [State.serviceIrq, if_neg (by simp [hr]), if_neg (mt s.external_test_iff.mp he),
    if_neg (mt s.software_test_iff.mp hs), if_pos (s.timer_test_iff.mpr ht)]
  exact State.takeIrq_of_pending (k := .timer) hp 4

end

theorem State.serviceIrq_of_nothing_due {s : State} (he : ¬ s.ExternalDue) (hs : ¬ s.SoftwareDue) (ht : ¬ s.TimerDue) :
    s.serviceIrq = s := by
  rw [State.serviceIrq, if_neg (mt s.external_test_iff.mp he), if_neg (mt s.software_test_iff.mp hs),
    if_neg (mt s.timer_test_iff.mp ht), ite_self]

/-- A recorded write of a CSR differs from the bare one in the ring and the outputs only. -/
theorem State.csrWrite_eq (s : State) (c : Csr) (v : Word) : ∃ ring outputs,
    s.csrWrite c v = { s with csr := csrWritten s.csr c v, ring := ring, outputs := outputs } := by
  by_cases h : s.csr = csrWritten s.csr c v
  · exact ⟨s.ring, s.outputs, by rw [s.csrWrite_of_same h, ← h]⟩
  · rw [s.csrWrite_of_changes h, State.record_eq]
    exact ⟨_, _, rfl⟩

/-- Settles O50: each case of the service is the entry of its interrupt. -/
theorem interruptPriority : Obligations.InterruptPriority := by
  intro s
  refine ⟨State.serviceIrq_of_raised, fun hr => ⟨fun p he hp => ?_, fun he hs => ?_, fun p he hs ht hp => ?_,
    fun he hs ht => State.serviceIrq_of_nothing_due he hs ht⟩⟩
  · rw [State.serviceIrq_of_external hr he hp]
    exact State.interruptEntry_spec _ 8 p
  · rw [State.serviceIrq_of_software hr he hs]
    obtain ⟨ring, outputs, hw⟩ := s.csrWrite_eq .uip (s.csr.uip &&& ~~~(1 : Word))
    rw [hw]
    have h := State.interruptEntry_spec { s with
      csr := csrWritten s.csr .uip (s.csr.uip &&& ~~~(1 : Word)), ring := ring, outputs := outputs } 0 0
    exact { h with memory := ⟨h.memory.bytes, h.memory.text⟩ }
  · rw [State.serviceIrq_of_timer hr he hs ht hp]
    exact State.interruptEntry_spec _ 4 p

/-! ### The termination checks (R640) -/

/-- A breakpoint at `pc`, or one the instruction hit (R640). -/
def State.AtBreakpoint (s : State) : Prop := s.iter.breakpointHit = true ∨ s.pc ∈ s.cfg.breakpoints

/-- The step budget is spent (R640). -/
def State.BudgetSpent (s : State) : Prop := ∃ n, s.cfg.maxSteps = some n ∧ n ≤ s.steps

theorem State.breakpoint_test_iff (s : State) :
    (s.iter.breakpointHit || s.cfg.breakpoints.contains s.pc) = true ↔ s.AtBreakpoint := by
  simp [State.AtBreakpoint]

theorem State.budget_test_iff (s : State) :
    s.cfg.maxSteps.any (fun n => decide (n ≤ s.steps)) = true ↔ s.BudgetSpent := by
  cases h : s.cfg.maxSteps <;> simp [State.BudgetSpent, h]

/-- What is left of the checks once a run goes on: a bounded run counts down (R621, R640). -/
def State.countDown (s : State) : State :=
  match s.driver with
  | .stepping n => if n ≤ 1 then s.stop .stepDone else { s with driver := .stepping (n - 1) }
  | _ => s

section

variable {s : State} (h : ∀ r, s.driver ≠ .stopped r)
include h

/-- The checks of R640 in their order, for a run that nothing has stopped yet. -/
theorem State.terminate_of_not_stopped : s.terminate =
    if s.iter.breakpointHit || s.cfg.breakpoints.contains s.pc then s.stop .breakpoint
    else if s.cfg.maxSteps.any (fun n => decide (n ≤ s.steps)) then s.stop .maxSteps
    else if s.stopRequested then { s with stopRequested := false }.stop .userStop else s.countDown := by
  unfold State.terminate State.countDown
  cases hd : s.driver with
  | stopped r => exact absurd hd (h r)
  | ready | running | stepping => rfl

theorem State.terminate_of_breakpoint (hb : s.AtBreakpoint) : s.terminate = s.stop .breakpoint := by
  rw [State.terminate_of_not_stopped h, if_pos (s.breakpoint_test_iff.mpr hb)]

theorem State.terminate_of_budget (hb : ¬ s.AtBreakpoint) (hm : s.BudgetSpent) : s.terminate = s.stop .maxSteps := by
  rw [State.terminate_of_not_stopped h, if_neg (mt s.breakpoint_test_iff.mp hb), if_pos (s.budget_test_iff.mpr hm)]

variable (hb : ¬ s.AtBreakpoint) (hm : ¬ s.BudgetSpent)
include hb hm

theorem State.terminate_of_request (hr : s.stopRequested = true) :
    s.terminate = { s with stopRequested := false }.stop .userStop := by
  rw [State.terminate_of_not_stopped h, if_neg (mt s.breakpoint_test_iff.mp hb), if_neg (mt s.budget_test_iff.mp hm),
    if_pos hr]

theorem State.terminate_of_no_check (hr : s.stopRequested = false) : s.terminate = s.countDown := by
  rw [State.terminate_of_not_stopped h, if_neg (mt s.breakpoint_test_iff.mp hb), if_neg (mt s.budget_test_iff.mp hm),
    if_neg (by simp [hr])]

end

theorem State.countDown_of_last {s : State} {n : Nat} (h : s.driver = .stepping n) (hn : n ≤ 1) :
    s.countDown = s.stop .stepDone := by
  simp [State.countDown, h, hn]

theorem State.countDown_of_more {s : State} {n : Nat} (h : s.driver = .stepping n) (hn : 1 < n) :
    s.countDown = { s with driver := .stepping (n - 1) } := by
  simp [State.countDown, h, Nat.not_le.mpr hn]

theorem State.countDown_of_free {s : State} (h : ∀ n, s.driver ≠ .stepping n) : s.countDown = s := by
  unfold State.countDown
  split
  · exact absurd ‹_› (h _)
  · rfl

/-- Settles O53: the first check that holds decides, and a run that meets none counts down. -/
theorem terminationOrder : Obligations.TerminationOrder := by
  intro s h
  refine ⟨State.terminate_of_breakpoint h, State.terminate_of_budget h, State.terminate_of_request h,
    fun hb hm hs => ?_⟩
  have hgo := State.terminate_of_no_check h hb hm hs
  exact ⟨fun n hn hle => hgo.trans (State.countDown_of_last hn hle),
    fun n hn hlt => hgo.trans (State.countDown_of_more hn hlt), fun hn => hgo.trans (State.countDown_of_free hn)⟩

/-! ### What a service and the rest of an iteration leave alone (R624, R620) -/

/-- Everything but `pc`, the CSRs, the controller, the Driver, the ring and the outputs is as before. -/
structure SameButTrap (s t : State) : Prop where
  x : t.x = s.x
  acc : t.acc = s.acc
  f : t.f = s.f
  iter : t.iter = s.iter
  steps : t.steps = s.steps
  cycles : t.cycles = s.cycles
  instret : t.instret = s.instret
  seq : t.seq = s.seq
  stopRequested : t.stopRequested = s.stopRequested
  mem : t.mem = s.mem
  text : t.text = s.text
  heapTop : t.heapTop = s.heapTop
  recording : t.recording = s.recording
  cfg : t.cfg = s.cfg
  inbox : t.inbox = s.inbox
  draws : t.draws = s.draws

/-- The software interrupt is the one a service takes (R624). -/
def State.SoftwareServiced (s : State) : Prop := s.iter.raised = false ∧ ¬ s.ExternalDue ∧ s.SoftwareDue

/-- The cases of the service: nothing, or one of the three entries (R624). -/
theorem State.serviceIrq_cases (s : State) :
    s.serviceIrq = s ∨
    (∃ p, s.ExternalDue ∧ s.serviceIrq = { s with ctl := { s.ctl with external := none } }.interruptEntry 8 p) ∨
    (s.SoftwareServiced ∧
      s.serviceIrq = (s.csrWrite .uip (s.csr.uip &&& ~~~(1 : Word))).interruptEntry 0 0) ∨
    (∃ p, s.TimerDue ∧ s.serviceIrq = { s with ctl := { s.ctl with timer := none } }.interruptEntry 4 p) := by
  cases hr : s.iter.raised with
  | true => exact .inl (State.serviceIrq_of_raised hr)
  | false =>
    by_cases he : s.ExternalDue
    · obtain ⟨p, hp⟩ := Option.ne_none_iff_exists'.mp he.2
      exact .inr (.inl ⟨p, he, State.serviceIrq_of_external hr he hp⟩)
    by_cases hs : s.SoftwareDue
    · exact .inr (.inr (.inl ⟨⟨hr, he, hs⟩, State.serviceIrq_of_software hr he hs⟩))
    by_cases ht : s.TimerDue
    · obtain ⟨p, hp⟩ := Option.ne_none_iff_exists'.mp ht.2
      exact .inr (.inr (.inr ⟨p, ht, State.serviceIrq_of_timer hr he hs ht hp⟩))
    · exact .inl (State.serviceIrq_of_nothing_due he hs ht)

theorem State.serviceIrq_sameButTrap (s : State) : SameButTrap s s.serviceIrq := by
  rcases s.serviceIrq_cases with h | ⟨p, -, h⟩ | ⟨-, h⟩ | ⟨p, -, h⟩ <;> rw [h] <;> constructor <;> simp

/-- The service claims no record, or the external one, or the timer's (R612, R624). -/
theorem State.serviceIrq_ctl (s : State) : s.serviceIrq.ctl = s.ctl ∨
    s.serviceIrq.ctl = { s.ctl with external := none } ∨ s.serviceIrq.ctl = { s.ctl with timer := none } := by
  rcases s.serviceIrq_cases with h | ⟨p, -, h⟩ | ⟨-, h⟩ | ⟨p, -, h⟩ <;> rw [h] <;> simp

/-- The checks move the Driver and the stop request only. -/
theorem State.terminate_frame (s : State) :
    s.terminate = { s with driver := s.terminate.driver, stopRequested := s.terminate.stopRequested } := by
  unfold State.terminate
  split
  · rfl
  split_ifs
  · rfl
  · rfl
  · rfl
  split
  · split_ifs <;> rfl
  · rfl

/-- A retirement changes the counts and the CSRs that show them only. -/
theorem State.countRetired_frame (s : State) : s.countRetired =
    { s with csr := s.countRetired.csr, cycles := s.countRetired.cycles, instret := s.countRetired.instret } := by
  unfold State.countRetired
  split <;> rfl

/-- The controller after an iteration's end. -/
theorem State.conclude_ctl (s : State) : s.conclude.ctl = s.ctl ∨
    s.conclude.ctl = { s.countRetired.drawTime.serviceIrq.ctl with checkRequested := false } := by
  unfold State.conclude
  split
  · exact .inl rfl
  · right
    dsimp only
    rw [State.terminate_frame]
    simp [State.mirrorUip, State.clearCheck]

/-- The records after an iteration's end: as before, or one claimed (R612, R624). -/
theorem State.conclude_records (s : State) :
    (s.conclude.ctl.external = s.ctl.external ∧ s.conclude.ctl.timer = s.ctl.timer ∨
      s.conclude.ctl.external = none ∧ s.conclude.ctl.timer = s.ctl.timer ∨
      s.conclude.ctl.timer = none ∧ s.conclude.ctl.external = s.ctl.external) ∧
    s.conclude.ctl.sync = s.ctl.sync := by
  have hctl : s.countRetired.drawTime.ctl = s.ctl := by rw [State.countRetired_frame]; rfl
  rcases s.conclude_ctl with h | h
  · rw [h]
    exact ⟨.inl ⟨rfl, rfl⟩, rfl⟩
  · rw [h, ← hctl]
    rcases s.countRetired.drawTime.serviceIrq_ctl with h | h | h <;> rw [h]
    · exact ⟨.inl ⟨rfl, rfl⟩, rfl⟩
    · exact ⟨.inr (.inl ⟨rfl, rfl⟩), rfl⟩
    · exact ⟨.inr (.inr ⟨rfl, rfl⟩), rfl⟩

/-! ### Every instruction answers (R603, R612) -/

/-- No action of a behaviour touches the controller. -/
theorem action_ctl {s t : State} (h : Action s t) : t.ctl = s.ctl := by
  cases h <;> simp

theorem actions_ctl {s t : State} (h : Actions s t) : t.ctl = s.ctl :=
  actions_keep (P := fun u => u.ctl = s.ctl) (fun ha hp => (action_ctl ha).trans hp) h rfl

theorem State.trapped_ctl (s : State) (e : Exc) : (s.trapped e).ctl = s.ctl := (s.trapped_spec e).ctl

/-- No instruction touches the controller: a trap it takes registers a record and claims it at once (R612). -/
theorem exec_ctl {i : Instr} {s t : State} (h : exec i s = .next t) : t.ctl = s.ctl :=
  exec_keeps (P := fun u => u.ctl = s.ctl) (fun ha hp => (action_ctl ha).trans hp)
    (fun u hp => u.advance_ctl.trans hp) (fun u e hp => (u.trapped_ctl e).trans hp) (fun _ _ hp => hp) rfl h

/-- The outcome is a next state with no synchronous record pending. -/
def Answers (r : Result) : Prop := ∃ t, r = .next t ∧ SyncIdle t

/-- With no record pending, every end of a behaviour answers. -/
theorem answers_finish {b : Behaviour} (h : SyncIdle b.final) : Answers (finish b) := by
  cases b with
  | done s => exact ⟨s.advance, rfl, (congrArg Controller.sync s.advance_ctl).trans h⟩
  | raise e s =>
    exact ⟨s.trapped e, takeException_of_syncIdle h e, (congrArg Controller.sync (s.trapped_ctl e)).trans h⟩
  | exit code s => exact ⟨s.stop (.exit code), rfl, h⟩

theorem answers_exec {s : State} (h : SyncIdle s) (i : Instr) : Answers (exec i s) := by
  obtain ⟨b, hb, hacts⟩ := exec_acted i s
  rw [hb]
  exact answers_finish ((congrArg Controller.sync (actions_ctl hacts)).trans h)

theorem answers_concludeResult {r : Result} (h : Answers r) : Answers (concludeResult r) := by
  obtain ⟨t, rfl, ht⟩ := h
  exact ⟨t.conclude, rfl, t.conclude_records.2.trans ht⟩

theorem answers_execWord {s : State} (h : SyncIdle s) (w : Word) : Answers (execWord w s) := by
  unfold execWord
  split
  · exact answers_exec h _
  · exact answers_finish (b := .raise (.illegalInstruction w) s) h

/-- An iteration that finds no synchronous record pending answers. -/
theorem answers_iterate {s : State} (h : SyncIdle s) : Answers (iterate s) := by
  have h0 : SyncIdle s.beginStep := h
  unfold iterate
  dsimp only
  split
  · exact ⟨_, rfl, h0⟩
  · rename_i e _
    exact answers_concludeResult (answers_finish (b := .raise e s.beginStep) h0)
  · exact answers_concludeResult (answers_execWord h0 _)

/-! ### What the host's writes and undo leave alone (R663, R680) -/

/-- Everything but the registers, memory, the heap, the ring and the outputs is as before. -/
structure SameControl (s t : State) : Prop where
  ctl : t.ctl = s.ctl
  driver : t.driver = s.driver
  iter : t.iter = s.iter
  steps : t.steps = s.steps
  cycles : t.cycles = s.cycles
  instret : t.instret = s.instret
  seq : t.seq = s.seq
  stopRequested : t.stopRequested = s.stopRequested
  recording : t.recording = s.recording
  cfg : t.cfg = s.cfg
  inbox : t.inbox = s.inbox
  draws : t.draws = s.draws

theorem SameControl.refl (s : State) : SameControl s s := ⟨rfl, rfl, rfl, rfl, rfl, rfl, rfl, rfl, rfl, rfl, rfl, rfl⟩

theorem SameControl.trans {s t u : State} (h : SameControl s t) (h' : SameControl t u) : SameControl s u :=
  ⟨h'.ctl.trans h.ctl, h'.driver.trans h.driver, h'.iter.trans h.iter, h'.steps.trans h.steps,
    h'.cycles.trans h.cycles, h'.instret.trans h.instret, h'.seq.trans h.seq,
    h'.stopRequested.trans h.stopRequested, h'.recording.trans h.recording, h'.cfg.trans h.cfg,
    h'.inbox.trans h.inbox, h'.draws.trans h.draws⟩

theorem State.setLoc_sameControl (s : State) (l : RegLoc) (v : DWord) : SameControl s (s.setLoc l v) := by
  cases l <;> constructor <;> simp [State.setLoc]

theorem State.rawWrite_sameControl (s : State) (a : Word) (w : Width) (v : Word) :
    SameControl s (s.rawWrite a w v) := by
  constructor <;> simp

/-- Putting cells back changes BYTES and TEXT only. -/
theorem State.restoreCells_eq (cells : List SavedCell) (s : State) :
    ∃ mem text, cells.foldl State.restoreCell s = { s with mem := mem, text := text } := by
  induction cells generalizing s with
  | nil => exact ⟨s.mem, s.text, rfl⟩
  | cons c rest ih =>
    obtain ⟨mem, text, h⟩ := ih (s.restoreCell c)
    refine ⟨mem, text, h.trans ?_⟩
    rcases c with _ | ⟨k, _ | w⟩ <;> rfl

theorem State.restoreCells_sameControl (cells : List SavedCell) (s : State) :
    SameControl s (cells.foldl State.restoreCell s) := by
  obtain ⟨mem, text, h⟩ := State.restoreCells_eq cells s
  rw [h]
  exact { SameControl.refl s with }

/-- The change of an entry undone, without its saved PC (R663). -/
def State.undoChange (s : State) : Change → State
  | .gpr r prior => s.writeX r prior
  | .acc name prior => s.writeAcc name prior
  | .pc prior => s.writePc prior
  | .fpr r prior => s.writeF r prior
  | .csr c prior => s.csrStore c prior
  | .store a w cells =>
    let t := cells.foldl State.restoreCell s
    t.emit (.memChanged a w (t.rawRead a w))
  | .heap prior => { s with heapTop := prior }

theorem State.applyInverse_of_savedPc {e : BackEntry} {p : Word} (h : e.savedPc = some p) (s : State) :
    s.applyInverse e = (s.undoChange e.change).writePc p := by
  obtain ⟨change, savedPc, word, g, cyc, ins⟩ := e
  obtain rfl : savedPc = some p := h
  cases change <;> rfl

theorem State.applyInverse_of_no_savedPc {e : BackEntry} (h : e.savedPc = none) (s : State) :
    s.applyInverse e = s.undoChange e.change := by
  obtain ⟨change, savedPc, word, g, cyc, ins⟩ := e
  obtain rfl : savedPc = none := h
  cases change <;> rfl

theorem State.undoChange_sameControl (s : State) (c : Change) : SameControl s (s.undoChange c) := by
  cases c with
  | store a w cells => exact { s.restoreCells_sameControl cells with }
  | _ => constructor <;> simp [State.undoChange]

theorem State.writePc_sameControl (s : State) (v : Word) : SameControl s (s.writePc v) := by
  constructor <;> simp

theorem State.applyInverse_sameControl (s : State) (e : BackEntry) : SameControl s (s.applyInverse e) := by
  cases h : e.savedPc with
  | none =>
    rw [State.applyInverse_of_no_savedPc h]
    exact s.undoChange_sameControl _
  | some p =>
    rw [State.applyInverse_of_savedPc h]
    exact (s.undoChange_sameControl _).trans (State.writePc_sameControl _ p)

theorem State.undoGroup_sameControl (s : State) (g : Option Nat) (l : List BackEntry) :
    SameControl s (s.undoGroup g l) := by
  induction l generalizing s with
  | nil => exact { SameControl.refl s with }
  | cons e rest ih =>
    unfold State.undoGroup
    split
    · exact (s.applyInverse_sameControl e).trans (ih _)
    · exact { SameControl.refl s with }

theorem State.restoreCounts_ctl (s : State) (e : BackEntry) : (s.restoreCounts e).ctl = s.ctl := by
  unfold State.restoreCounts
  split <;> simp

theorem State.restoreCounts_cfg (s : State) (e : BackEntry) : (s.restoreCounts e).cfg = s.cfg := by
  unfold State.restoreCounts
  split <;> simp

/-- The BackStepper's switch off, while undo runs (R663). -/
def State.recordingOff (s : State) : State := { s with recording := false }

/-- The state undo brings the top entry's group to, before the counts and the Driver are put back (R663). -/
def State.undone (s : State) (e : BackEntry) (rest : List BackEntry) : State :=
  (s.recordingOff.applyInverse e).undoGroup e.step rest

theorem State.undo_of_cons {s : State} {e : BackEntry} {rest : List BackEntry} (h : s.ring = e :: rest) : s.undo =
    { (s.undone e rest).restoreCounts e with recording := s.cfg.backstepEnabled, driver := .stopped .userStop } := by
  unfold State.undo
  split
  · rename_i hnil
    exact absurd (h.symm.trans hnil) (List.cons_ne_nil _ _)
  · rename_i hcons
    obtain ⟨rfl, rfl⟩ := List.cons.inj (h.symm.trans hcons)
    rfl

theorem State.undo_of_nil {s : State} (h : s.ring = []) : s.undo = s.emit .nothingToUndo := by
  rw [State.undo, h]

theorem State.undone_sameControl (s : State) (e : BackEntry) (rest : List BackEntry) :
    SameControl s.recordingOff (s.undone e rest) :=
  (State.applyInverse_sameControl _ e).trans (State.undoGroup_sameControl _ e.step rest)

theorem State.undo_ctl (s : State) : s.undo.ctl = s.ctl := by
  cases h : s.ring with
  | nil => rw [State.undo_of_nil h, State.emit_ctl]
  | cons e rest =>
    rw [State.undo_of_cons h]
    exact (State.restoreCounts_ctl _ e).trans (s.undone_sameControl e rest).ctl

theorem State.undo_cfg (s : State) : s.undo.cfg = s.cfg := by
  cases h : s.ring with
  | nil => rw [State.undo_of_nil h, State.emit_cfg]
  | cons e rest =>
    rw [State.undo_of_cons h]
    exact (State.restoreCounts_cfg _ e).trans (s.undone_sameControl e rest).cfg

/-! ### Events and steps: the parameters, and the synchronous record (R603, R701) -/

/-- The outcome is no fault; its next state has the parameters of `s`, and a synchronous record pending only where `s`
has one. -/
structure Settles (s : State) (r : Result) : Prop where
  noFault : ∀ f, r ≠ .fault f
  cfg : ∀ t, r = .next t → t.cfg = s.cfg
  idle : ∀ t, r = .next t → SyncIdle s → SyncIdle t

theorem Settles.next {s t : State} (hcfg : t.cfg = s.cfg) (hidle : SyncIdle s → SyncIdle t) :
    Settles s (.next t) where
  noFault _ := nofun
  cfg _ hu := Host.Outcome.next.inj hu ▸ hcfg
  idle _ hu := Host.Outcome.next.inj hu ▸ hidle

theorem Settles.of_ctl {s t : State} (hcfg : t.cfg = s.cfg) (hctl : t.ctl = s.ctl) : Settles s (.next t) :=
  .next hcfg fun hs => (congrArg Controller.sync hctl).trans hs

theorem Settles.refused (s : State) (r : Refusal) : Settles s (.refused r) where
  noFault _ h := by cases h
  cfg _ h := by cases h
  idle _ h := by cases h

theorem Settles.whilePaused {s t : State} (h : Settles s (.next t)) : Settles s (whilePaused s t) := by
  unfold Machine.whilePaused
  split
  · exact .refused s _
  · exact h

/-- No event of the host or of a device is a fault, and none changes the parameters or makes a synchronous record
pending. -/
theorem settles_applyEvent (e : HostEvent) (s : State) : Settles s (applyEvent e s) := by
  cases e with
  | run | step n =>
    simp only [applyEvent]
    split
    · exact .of_ctl rfl rfl
    · exact .refused s _
  | stop | getMem a w | queryStop => exact .of_ctl rfl rfl
  | reset => exact .whilePaused (.next rfl fun _ => rfl)
  | undo => exact .whilePaused (.of_ctl s.undo_cfg s.undo_ctl)
  | getReg r =>
    simp only [applyEvent]
    split <;> exact .of_ctl rfl rfl
  | setReg r v =>
    simp only [applyEvent]
    split
    · rename_i l _
      exact .whilePaused (.of_ctl (s.setLoc_sameControl l v).cfg (s.setLoc_sameControl l v).ctl)
    · exact .whilePaused (.of_ctl rfl rfl)
  | setMem a w v => exact .whilePaused (.of_ctl (s.rawWrite_cfg a w v) (s.rawWrite_ctl a w v))
  | register k p => exact .next rfl (s.ctl.registerIrq_sync k p).trans
  | deviceWrite a w v =>
    simp only [applyEvent]
    split
    · exact .of_ctl (s.rawWrite_cfg a w v) (s.rawWrite_ctl a w v)
    · exact .refused s _

theorem Settles.trans {s t : State} {r : Result} (h : Settles s (.next t)) (h' : Settles t r) : Settles s r where
  noFault := h'.noFault
  cfg u hu := (h'.cfg u hu).trans (h.cfg t rfl)
  idle u hu hs := h'.idle u hu (h.idle t rfl hs)

theorem settles_applyEvents (es : List HostEvent) (s : State) : Settles s (applyEvents es s) := by
  induction es generalizing s with
  | nil => exact .of_ctl rfl rfl
  | cons e rest ih =>
    have he := settles_applyEvent e s
    unfold applyEvents
    split
    · rename_i t ht
      exact (ht ▸ he).trans (ih t)
    · rename_i f hf
      exact absurd hf (he.noFault f)
    · exact .refused s _

/-- What a step comes to: nothing to do, a refusal, or the state its events lead to with or without an iteration
(R613, R620, R621). -/
theorem step_cases (s : State) : step s = .fault .driverIdle ∨ (∃ r, step s = .refused r) ∨
    ∃ u, Settles s (.next u) ∧ (step s = .next u ∨ step s = iterate u) := by
  unfold step driverStep
  split
  · split
    · exact .inr (.inr ⟨s, .of_ctl rfl rfl, .inr rfl⟩)
    · exact .inl rfl
  · rename_i b rest _
    have he := (Settles.of_ctl (s := s) (t := { s.atBoundary with inbox := rest }) rfl rfl).trans
      (settles_applyEvents b _)
    split
    · rename_i u hu
      refine .inr (.inr ⟨u, hu ▸ he, ?_⟩)
      split
      · exact .inr rfl
      · exact .inl rfl
    · rename_i f hf
      exact absurd hf (he.noFault f)
    · exact .inr (.inl ⟨_, rfl⟩)

/-- A step with no synchronous record pending answers, is refused, or finds the Driver idle. -/
theorem step_of_syncIdle {s : State} (hs : SyncIdle s) :
    step s = .fault .driverIdle ∨ (∃ r, step s = .refused r) ∨ Answers (step s) := by
  rcases step_cases s with h | h | ⟨u, hu, h | h⟩
  · exact .inl h
  · exact .inr (.inl h)
  · exact .inr (.inr ⟨u, h, hu.idle u rfl hs⟩)
  · rw [h]
    exact .inr (.inr (answers_iterate (hu.idle u rfl hs)))

/-- Settles O48: an instruction ends as its behaviour does, and an iteration as its instruction; the events before it
make no synchronous record pending. -/
theorem everyInstructionAnswers : Obligations.EveryInstructionAnswers := by
  refine ⟨fun i s hs => answers_exec hs i, fun s hs => ?_⟩
  rcases step_of_syncIdle hs with h | ⟨r, h⟩ | ⟨u, h, hu⟩ <;> rw [h]
  · exact ⟨nofun, fun t ht => by cases ht⟩
  · exact ⟨nofun, fun t ht => by cases ht⟩
  · exact ⟨nofun, fun t ht => Host.Outcome.next.inj ht ▸ hu⟩

/-! ### The interrupt records (R612, R624, R628) -/

/-- An iteration that reaches its end is a behaviour from its start on, that behaviour's end, and the conclusion. -/
theorem iterate_next {s t : State} (h : iterate s = .next t) : t = s.beginStep.stop .cliff ∨
    ∃ b m, Actions s.beginStep b.final ∧ finish b = .next m ∧ t = m.conclude := by
  unfold iterate at h
  dsimp only at h
  split at h
  · exact .inl (Host.Outcome.next.inj h).symm
  · rename_i e _
    obtain ⟨m, hm, rfl⟩ := concludeResult_next h
    exact .inr ⟨.raise e s.beginStep, m, .refl, hm, rfl⟩
  · rename_i w _
    obtain ⟨m, hm, rfl⟩ := concludeResult_next h
    unfold execWord at hm
    split at hm
    · rename_i d _
      obtain ⟨b, hb, hacts⟩ := exec_acted (d.build w) s.beginStep
      exact .inr ⟨b, m, hacts, hb.symm.trans hm, rfl⟩
    · exact .inr ⟨.raise (.illegalInstruction w) s.beginStep, m, .refl, hm, rfl⟩

/-- The end of a behaviour leaves the controller as the behaviour found it. -/
theorem finish_ctl {b : Behaviour} {t : State} (h : finish b = .next t) : t.ctl = b.final.ctl := by
  rcases finish_next h with rfl | ⟨e, rfl⟩ | ⟨code, rfl⟩
  · exact b.final.advance_ctl
  · exact b.final.trapped_ctl e
  · rfl

/-- Settles O51: a behaviour leaves the controller alone, and an iteration's end claims at most one record. -/
theorem pendingInterrupts : Obligations.PendingInterrupts := by
  refine ⟨fun i s t h => ?_, fun s t hrun h => ?_⟩
  · rw [exec_ctl h]
    exact ⟨rfl, rfl⟩
  · rw [step_of_running hrun] at h
    rcases iterate_next h with rfl | ⟨b, m, hacts, hm, rfl⟩
    · exact ⟨.inl rfl, .inl rfl⟩
    · have hfinal : b.final.ctl = s.beginStep.ctl := actions_ctl hacts
      have hctl : m.ctl = s.ctl := (finish_ctl hm).trans hfinal
      have hrec := m.conclude_records.1
      rw [hctl] at hrec
      rcases hrec with ⟨he, ht⟩ | ⟨he, ht⟩ | ⟨ht, he⟩
      · exact ⟨.inl he, .inl ht⟩
      · exact ⟨.inr ⟨he, ht⟩, .inl ht⟩
      · exact ⟨.inl he, .inr ⟨ht, he⟩⟩

/-! ### The counters stand apart from the service (R650, R652) -/

/-- The bank with the counters and the time of another. -/
def Csrs.withCounters (t n : Csrs) : Csrs :=
  { t with cycle := n.cycle, time := n.time, instret := n.instret,
           cycleh := n.cycleh, timeh := n.timeh, instreth := n.instreth }

/-- A view and the register it shows are of one kind (R82, R84). -/
theorem Csr.isReadOnly_backing (c : Csr) : c.backing.isReadOnly = c.isReadOnly := by
  cases c <;> rfl

/-- The machine with the counters, the time and the draws of another. -/
def State.withCounters (s n : State) : State :=
  { s with csr := s.csr.withCounters n.csr, cycles := n.cycles, instret := n.instret, draws := n.draws }

/-- Step 5 of an iteration changes the counters, the time and the draws only. -/
theorem State.countRetired_drawTime_eq (s : State) :
    s.countRetired.drawTime = s.withCounters s.countRetired.drawTime := by
  unfold State.countRetired
  split
  · simp only [State.drawTime, State.withCounters, Csrs.withCounters, State.csrBackdoor, Csrs.set]
  · simp only [State.showCounts_eq, State.drawTime, State.withCounters, Csrs.withCounters, State.csrBackdoor, Csrs.set]

section

variable (s n : State)

theorem State.record_withCounters (c : Change) : (s.withCounters n).record c = (s.record c).withCounters n := by
  unfold State.record
  split
  · rename_i h
    rw [if_pos (show s.recording = true from h)]
    rfl
  · rename_i h
    rw [if_neg (show ¬ s.recording = true from h)]

theorem State.writePc_withCounters (v : Word) : (s.withCounters n).writePc v = (s.writePc v).withCounters n := by
  by_cases h : s.pc = v
  · rw [State.writePc, State.writePc, if_pos h, if_pos (show (s.withCounters n).pc = v from h)]
  · rw [s.writePc_of_ne h, State.writePc_of_ne _ (show (s.withCounters n).pc ≠ v from h), State.record_withCounters]
    rfl

/-- A write of a register that is not read-only reaches no counter. -/
theorem csrWritten_withCounters {c : Csr} (hc : c.isReadOnly = false) (t m : Csrs) (v : Word) :
    csrWritten (t.withCounters m) c v = (csrWritten t c v).withCounters m := by
  cases c
  case cycle | time | instret | cycleh | timeh | instreth => exact absurd hc (by decide)
  all_goals rfl

theorem Csrs.get_withCounters {c : Csr} (hc : c.isReadOnly = false) (t m : Csrs) :
    (t.withCounters m).get c = t.get c := by
  cases c
  case cycle | time | instret | cycleh | timeh | instreth => exact absurd hc (by decide)
  all_goals rfl

theorem Csrs.set_withCounters {c : Csr} (hc : c.isReadOnly = false) (t m : Csrs) (v : Word) :
    (t.withCounters m).set c v = (t.set c v).withCounters m := by
  cases c
  case cycle | time | instret | cycleh | timeh | instreth => exact absurd hc (by decide)
  all_goals rfl

theorem State.csrStore_withCounters {c : Csr} (hc : c.isReadOnly = false) (v : Word) :
    (s.withCounters n).csrStore c v = (s.csrStore c v).withCounters n := by
  have hget : (s.withCounters n).csr.get c = s.csr.get c := Csrs.get_withCounters hc s.csr n.csr
  by_cases h : s.csr.get c = v
  · rw [State.csrStore, State.csrStore, if_pos h, if_pos (hget.trans h)]
  · rw [s.csrStore_of_ne h, State.csrStore_of_ne _ (fun he => h (hget.symm.trans he)), hget, State.record_withCounters]
    simp only [State.withCounters, State.emit, ← Csrs.set_withCounters hc]

theorem State.csrWrite_withCounters {c : Csr} (hc : c.isReadOnly = false) (v : Word) :
    (s.withCounters n).csrWrite c v = (s.csrWrite c v).withCounters n := by
  have hb : c.backing.isReadOnly = false := c.isReadOnly_backing.trans hc
  have hv : (csrWritten (s.withCounters n).csr c v).get c.backing = (csrWritten s.csr c v).get c.backing := by
    rw [State.withCounters, csrWritten_withCounters hc, Csrs.get_withCounters hb]
  rw [State.csrWrite_eq_csrStore _ hc, s.csrWrite_eq_csrStore hc, hv, s.csrStore_withCounters n hb]

theorem State.writeTrapRecord_withCounters (cause epc tval : Word) :
    (s.withCounters n).writeTrapRecord cause epc tval = (s.writeTrapRecord cause epc tval).withCounters n := by
  simp only [State.writeTrapRecord]
  rw [s.csrWrite_withCounters n rfl, State.csrWrite_withCounters _ n rfl, State.csrWrite_withCounters _ n rfl]

@[simp] theorem State.withCounters_pc : (s.withCounters n).pc = s.pc := rfl

@[simp] theorem State.withCounters_utvec : (s.withCounters n).csr.utvec = s.csr.utvec := rfl

@[simp] theorem State.withCounters_csrRead_ustatus :
    (s.withCounters n).csrRead .ustatus = s.csrRead .ustatus := rfl

/-- Entering an interrupt and replacing the counters commute. -/
theorem State.interruptEntry_withCounters (code p : Word) :
    (s.withCounters n).interruptEntry code p = (s.interruptEntry code p).withCounters n := by
  by_cases h : HandlerAt s (vectorOf s.csr.utvec code)
  · rw [s.interruptEntry_of_handler h, State.interruptEntry_of_handler (s := s.withCounters n) h]
    simp only [State.withCounters_pc, State.withCounters_utvec, State.writeTrapRecord_withCounters,
      State.withCounters_csrRead_ustatus, State.csrWrite_withCounters _ n (c := .ustatus) rfl,
      State.writePc_withCounters]
  · rw [s.interruptEntry_of_no_handler h, State.interruptEntry_of_no_handler (s := s.withCounters n) h,
      State.withCounters_pc, State.writeTrapRecord_withCounters]
    rfl

theorem State.takeIrq_withCounters (k : IrqKind) (code : Word) :
    (s.withCounters n).takeIrq k code = (s.takeIrq k code).withCounters n := by
  cases hk : s.ctl.irq k with
  | none =>
    have hn : (s.withCounters n).ctl.irq k = none := hk
    simp only [State.takeIrq, Controller.claimIrq_of_idle hk, Controller.claimIrq_of_idle hn]
  | some p =>
    rw [State.takeIrq_of_pending hk, State.takeIrq_of_pending (s := s.withCounters n) hk]
    exact State.interruptEntry_withCounters { s with ctl := s.ctl.setIrq k none } n code p

/-- The service neither reads nor writes the counters (R624). -/
theorem State.serviceIrq_withCounters : (s.withCounters n).serviceIrq = s.serviceIrq.withCounters n := by
  have hsoft :
      ((s.withCounters n).csrWrite .uip ((s.withCounters n).csrRead .uip &&& ~~~(1 : Word))).interruptEntry 0 0 =
      ((s.csrWrite .uip (s.csrRead .uip &&& ~~~(1 : Word))).interruptEntry 0 0).withCounters n := by
    rw [s.csrWrite_withCounters n rfl]
    exact State.interruptEntry_withCounters _ n 0 0
  unfold State.serviceIrq
  rw [s.takeIrq_withCounters n, s.takeIrq_withCounters n, hsoft]
  simp only [apply_ite (fun t : State => t.withCounters n)]
  rfl

end

/-! ### The mirror of the records in `uip` (R627) -/

/-- The mirrored `uip` (R627). -/
def mirrored (u : Word) (external timer : Bool) : Word :=
  (u &&& ~~~(0x110 : Word)) ||| (if external then 0x100 else 0) ||| (if timer then 0x010 else 0)

theorem mirrored_bit_8 (u : Word) (e t : Bool) : (mirrored u e t).getLsbD 8 = e := by
  cases e <;> cases t <;> simp [mirrored]

theorem mirrored_bit_4 (u : Word) (e t : Bool) : (mirrored u e t).getLsbD 4 = t := by
  cases e <;> cases t <;> simp [mirrored]

theorem mirrored_bit_0 (u : Word) (e t : Bool) : (mirrored u e t).getLsbD 0 = u.getLsbD 0 := by
  cases e <;> cases t <;> simp [mirrored]

/-- The mirror changes bits 8 and 4 only. -/
theorem mirrored_others (u : Word) (e t : Bool) : mirrored u e t &&& ~~~(0x111 : Word) = u &&& ~~~(0x111 : Word) := by
  have h : (u &&& ~~~(0x110 : Word)) &&& ~~~(0x111 : Word) = u &&& ~~~(0x111 : Word) := by
    rw [BitVec.and_assoc]
    rfl
  rw [mirrored, BitVec.and_or_distrib_right, BitVec.and_or_distrib_right, h]
  cases e <;> cases t <;> simp

/-! ### The rest of an iteration (R620 steps 5-7) -/

/-- The state that the termination checks find, by way of the service of the state `m` itself (R620). -/
def State.serviced (m : State) : State :=
  (m.serviceIrq.withCounters m.countRetired.drawTime).clearCheck.mirrorUip

theorem State.conclude_of_not_exited {m : State} (h : m.exited = false) :
    m.conclude = { m.serviced with steps := m.steps + 1 }.terminate := by
  have hs : m.countRetired.drawTime.serviceIrq.clearCheck.mirrorUip = m.serviced := by
    rw [State.countRetired_drawTime_eq, State.serviceIrq_withCounters]
    rfl
  have hsteps : m.serviced.steps = m.steps := (State.csrWrite_steps _ _ _).trans m.serviceIrq_counters.1
  rw [State.conclude, if_neg (by simp [h])]
  dsimp only
  rw [hs, hsteps]

theorem State.conclude_of_exited {m : State} (h : m.exited = true) : m.conclude = { m with steps := m.steps + 1 } :=
  if_pos h

/-- What the termination checks decide rests on the Driver, the iteration's variables, `pc`, the parameters, the step
count and the stop request. -/
theorem State.terminate_congr {s t : State} (hdriver : t.driver = s.driver) (hiter : t.iter = s.iter)
    (hpc : t.pc = s.pc) (hcfg : t.cfg = s.cfg) (hsteps : t.steps = s.steps)
    (hstop : t.stopRequested = s.stopRequested) :
    t.terminate.driver = s.terminate.driver ∧ t.terminate.stopRequested = s.terminate.stopRequested := by
  unfold State.terminate
  rw [hdriver, hiter, hpc, hcfg, hsteps, hstop]
  split
  · exact ⟨hdriver, hstop⟩
  split_ifs
  · exact ⟨rfl, hstop⟩
  · exact ⟨rfl, hstop⟩
  · exact ⟨rfl, rfl⟩
  split
  · split_ifs
    · exact ⟨rfl, hstop⟩
    · exact ⟨rfl, rfl⟩
  · exact ⟨hdriver, hstop⟩

/-- The state the termination checks of the statement are made on: serviced, and the step counted. -/
def State.counted (m : State) : State := { m.serviceIrq with steps := m.steps + 1 }

/-- The bank after an iteration that did not exit: the service's, the counters and the time, and the mirror. -/
def State.concludedCsr (m : State) : Csrs :=
  { m.serviceIrq.csr.withCounters m.countRetired.drawTime.csr with
    uip := mirrored m.serviceIrq.csr.uip m.serviceIrq.ctl.external.isSome m.serviceIrq.ctl.timer.isSome }

/-- An iteration that did not exit ends in the serviced state, but for the counters, the mirror, the check flag and what
the termination checks decide. -/
theorem State.conclude_eq {m : State} (h : m.exited = false) : ∃ ring outputs, m.conclude =
    { m.serviceIrq with
      csr := m.concludedCsr
      ctl := { m.serviceIrq.ctl with checkRequested := false }
      driver := m.counted.terminate.driver
      stopRequested := m.counted.terminate.stopRequested
      steps := m.steps + 1
      cycles := m.countRetired.drawTime.cycles
      instret := m.countRetired.drawTime.instret
      draws := m.countRetired.drawTime.draws
      ring := ring
      outputs := outputs } := by
  obtain ⟨ring, outputs, hw⟩ := State.csrWrite_eq (m.serviceIrq.withCounters m.countRetired.drawTime).clearCheck .uip
    (mirrored m.serviceIrq.csr.uip m.serviceIrq.ctl.external.isSome m.serviceIrq.ctl.timer.isSome)
  have hserviced : m.serviced = _ := hw
  obtain ⟨hdriver, hstop⟩ := State.terminate_congr (s := m.counted) (t := { m.serviced with steps := m.steps + 1 })
    (by rw [hserviced]; rfl) (by rw [hserviced]; rfl) (by rw [hserviced]; rfl) (by rw [hserviced]; rfl) rfl
    (by rw [hserviced]; rfl)
  refine ⟨ring, outputs, ?_⟩
  rw [State.conclude_of_not_exited h, State.terminate_frame, hdriver, hstop, hserviced]
  rfl

/-! ### The counters and the time (R650, R652) -/

theorem State.countRetired_of_raised {s : State} (h : s.iter.raised = true) : s.countRetired = s := if_pos h

theorem State.countRetired_of_not_raised {s : State} (h : s.iter.raised = false) :
    s.countRetired = ({ s with cycles := s.cycles + 1, instret := s.instret + 1 } : State).showCounts :=
  if_neg (by simp [h])

theorem State.countRetired_timeValue (s : State) : s.countRetired.timeValue = s.timeValue := by
  cases h : s.iter.raised with
  | true => rw [State.countRetired_of_raised h]
  | false =>
    rw [State.countRetired_of_not_raised h]
    rfl

theorem le_nextTime (now draw : BitVec 64) : now.toNat ≤ (nextTime now draw).toNat := by
  unfold nextTime
  split
  · exact le_rfl
  · exact Nat.not_lt.mp ‹_›

/-- The time shown after a draw is the drawn one (R652). -/
theorem State.drawTime_timeValue (s : State) :
    s.drawTime.timeValue = nextTime s.timeValue (Config.timeDraw s.draws) := halves_append _

/-- The time does not run back (R652). -/
theorem State.timeValue_le_drawTime (s : State) : s.timeValue.toNat ≤ s.countRetired.drawTime.timeValue.toNat := by
  rw [State.drawTime_timeValue, ← s.countRetired_timeValue]
  exact le_nextTime _ _

theorem State.drawTime_countRetired_draws (s : State) : s.countRetired.drawTime.draws = s.draws + 1 := by
  rw [State.countRetired_frame]
  rfl

/-- A retirement counts, and the counts are shown (R650). -/
theorem State.counts_of_not_raised {s : State} (h : s.iter.raised = false) :
    let n := s.countRetired.drawTime
    n.cycles = s.cycles + 1 ∧ n.instret = s.instret + 1 ∧
    n.csr.cycleh ++ n.csr.cycle = n.cycles ∧ n.csr.instreth ++ n.csr.instret = n.instret := by
  dsimp only
  rw [State.countRetired_of_not_raised h]
  exact ⟨rfl, rfl, halves_append _, halves_append _⟩

/-! ### The registers of the bank that a service writes (R632) -/

/-- Entering an interrupt writes `ustatus`, `ucause`, `uepc` and `utval`. -/
theorem State.interruptEntry_csr (s : State) (code p : Word) : ∃ status cause epc tval,
    (s.interruptEntry code p).csr = { s.csr with ustatus := status, ucause := cause, uepc := epc, utval := tval } := by
  by_cases h : HandlerAt s (vectorOf s.csr.utvec code)
  · exact ⟨_, _, _, _, ((s.interruptEntry_spec code p).taken h).2.2⟩
  · exact ⟨s.csr.ustatus, _, _, _, ((s.interruptEntry_spec code p).noHandler h).2.2⟩

theorem State.serviceIrq_csr_of_software {s : State} (h : s.SoftwareServiced) : ∃ status cause epc tval,
    s.serviceIrq.csr = { s.csr with ustatus := status, ucause := cause, uepc := epc, utval := tval,
                                    uip := s.csr.uip &&& ~~~(1 : Word) } := by
  obtain ⟨hr, he, hs⟩ := h
  rw [State.serviceIrq_of_software hr he hs]
  obtain ⟨status, cause, epc, tval, hcsr⟩ :=
    (s.csrWrite .uip (s.csr.uip &&& ~~~(1 : Word))).interruptEntry_csr 0 0
  exact ⟨status, cause, epc, tval, by rw [hcsr, State.csrWrite_csr]; rfl⟩

theorem State.serviceIrq_csr_of_not_software {s : State} (hn : ¬ s.SoftwareServiced) : ∃ status cause epc tval,
    s.serviceIrq.csr = { s.csr with ustatus := status, ucause := cause, uepc := epc, utval := tval } := by
  rcases s.serviceIrq_cases with h | ⟨p, -, h⟩ | ⟨hs, -⟩ | ⟨p, -, h⟩
  · exact ⟨_, _, _, _, by rw [h]⟩
  · rw [h]
    exact State.interruptEntry_csr _ 8 p
  · exact absurd hs hn
  · rw [h]
    exact State.interruptEntry_csr _ 4 p

/-- A service changes no other register of the bank, and bit 0 of `uip` only where the software interrupt is serviced
(R624, R632). -/
theorem State.serviceIrq_csr (s : State) : ∃ status cause epc tval uip,
    s.serviceIrq.csr = { s.csr with ustatus := status, ucause := cause, uepc := epc, utval := tval, uip := uip } ∧
    (¬ s.SoftwareServiced → uip = s.csr.uip) ∧ (s.SoftwareServiced → uip = s.csr.uip &&& ~~~(1 : Word)) := by
  by_cases h : s.SoftwareServiced
  · obtain ⟨status, cause, epc, tval, hcsr⟩ := State.serviceIrq_csr_of_software h
    exact ⟨status, cause, epc, tval, _, hcsr, absurd h, fun _ => rfl⟩
  · obtain ⟨status, cause, epc, tval, hcsr⟩ := State.serviceIrq_csr_of_not_software h
    exact ⟨status, cause, epc, tval, s.csr.uip, hcsr, fun _ => rfl, (absurd · h)⟩

/-- Settles O52: an exit counts the step alone; otherwise each clause is read off the concluded state. -/
theorem boundaryUpdates : Obligations.BoundaryUpdates := by
  intro m t on external software timer taken
  refine ⟨State.conclude_of_exited, fun hx => ?_⟩
  obtain ⟨ring, outputs, ht⟩ := State.conclude_eq hx
  obtain ⟨status, cause, epc, tval, uip, hcsr, hkept, hcleared⟩ := m.serviceIrq_csr
  have hs := m.serviceIrq_sameButTrap
  change t = _ at ht
  have htcsr : t.csr = m.concludedCsr := congrArg State.csr ht
  have huip : t.csr.uip = mirrored uip m.serviceIrq.ctl.external.isSome m.serviceIrq.ctl.timer.isSome := by
    rw [htcsr, State.concludedCsr, hcsr]
  refine ⟨?counted, fun hr => ?retired, fun hr => ?raised, ?time, fun r => ?registers, ?mem, ?text, ?acc, ?heap, ?fcsr,
    ?uie, ?utvec, ?uscratch, ?trap, ?driver, ?mirror, fun h => ?cleared, fun h => ?kept, fun h => ?idle⟩
  case counted =>
    rw [ht]
    exact ⟨rfl, hs.seq, hs.cfg, hs.inbox, hs.iter, hs.recording, m.drawTime_countRetired_draws⟩
  case retired =>
    rw [ht]
    exact State.counts_of_not_raised hr
  case raised =>
    rw [ht, State.concludedCsr, State.countRetired_of_raised hr]
    exact ⟨rfl, rfl, rfl, rfl, rfl, rfl⟩
  case time =>
    rw [ht]
    exact m.timeValue_le_drawTime
  case registers => exact ⟨State.readX_congr (ht ▸ hs.x) r, State.readF_congr (ht ▸ hs.f) r⟩
  case mem => rw [ht]; exact hs.mem
  case text => rw [ht]; exact hs.text
  case acc => rw [ht]; exact hs.acc
  case heap => rw [ht]; exact hs.heapTop
  case fcsr | uie | utvec | uscratch => rw [htcsr, State.concludedCsr, hcsr]; rfl
  case trap => rw [ht]; exact ⟨rfl, rfl, rfl, rfl, rfl, rfl⟩
  case driver => rw [ht]; exact ⟨rfl, rfl⟩
  case mirror =>
    have hctl : t.ctl.external = m.serviceIrq.ctl.external ∧ t.ctl.timer = m.serviceIrq.ctl.timer := by
      rw [ht]
      exact ⟨rfl, rfl⟩
    rw [huip, hctl.1, hctl.2]
    refine ⟨mirrored_bit_8 .., mirrored_bit_4 .., (mirrored_others ..).trans ?_⟩
    by_cases h : m.SoftwareServiced
    · rw [hcleared h, BitVec.and_assoc]
      rfl
    · rw [hkept h]
  case cleared =>
    rw [huip, mirrored_bit_0, hcleared h]
    simp
  case kept => rw [huip, mirrored_bit_0, hkept h]
  case idle =>
    have hnone : m.serviceIrq = m := by
      rcases h with hr | ⟨he, hsoft, htimer⟩
      · exact State.serviceIrq_of_raised hr
      · exact State.serviceIrq_of_nothing_due he hsoft htimer
    rw [ht, State.concludedCsr, hnone]
    exact ⟨rfl, rfl, rfl, rfl, rfl, rfl, rfl, rfl⟩

/-! ### Contents that undo brings back (R661-R665) -/

/-- The registers but `pc`, every CSR that is not read-only, memory and the heap are the same. -/
structure SameContents (s t : State) : Prop where
  x : t.x = s.x
  f : t.f = s.f
  acc : t.acc = s.acc
  csr : ∀ c : Csr, c.isReadOnly = false → t.csr.get c = s.csr.get c
  mem : t.mem = s.mem
  text : t.text = s.text
  heapTop : t.heapTop = s.heapTop

theorem SameContents.refl (s : State) : SameContents s s := ⟨rfl, rfl, rfl, fun _ _ => rfl, rfl, rfl, rfl⟩

theorem SameContents.trans {s t u : State} (h : SameContents s t) (h' : SameContents t u) : SameContents s u :=
  ⟨h'.x.trans h.x, h'.f.trans h.f, h'.acc.trans h.acc,
    fun c hc => (h'.csr c hc).trans (h.csr c hc), h'.mem.trans h.mem, h'.text.trans h.text,
    h'.heapTop.trans h.heapTop⟩

theorem SameContents.symm {s t : State} (h : SameContents s t) : SameContents t s :=
  ⟨h.x.symm, h.f.symm, h.acc.symm, fun c hc => (h.csr c hc).symm, h.mem.symm, h.text.symm, h.heapTop.symm⟩

/-- A general register's cell replaced, but that of x0 (R55). -/
def putX (x : Vector Word 32) (r : Reg) (v : Word) : Vector Word 32 := if r = 0 then x else x.set r.toNat v r.isLt

theorem State.writeX_x (s : State) (r : Reg) (v : Word) :
    (s.writeX r v).x = putX s.x r v := by
  unfold putX
  by_cases h0 : r = 0
  · rw [if_pos h0, s.writeX_of_same (.inl h0)]
  by_cases hv : s.readX r = v
  · have hx : s.x[r.toNat]'r.isLt = v := by rwa [State.readX, if_neg h0] at hv
    rw [if_neg h0, s.writeX_of_same (.inr hv), ← hx, Vector.set_getElem_self]
  · rw [if_neg h0, s.writeX_of_ne h0 hv]
    rfl

theorem State.writeF_f (s : State) (r : Reg) (v : DWord) : (s.writeF r v).f = s.f.set r.toNat v r.isLt := by
  by_cases hv : s.readF r = v
  · have hf : s.f[r.toNat]'r.isLt = v := hv
    rw [State.writeF, if_pos hv, ← hf, Vector.set_getElem_self]
  · rw [s.writeF_of_ne hv]
    rfl

theorem accPut_of_none {l : List (String × Word)} {n : String} (h : accFind l n = none) (v : Word) :
    accPut l n v = l := by
  induction l with
  | nil => rfl
  | cons p rest ih =>
    obtain ⟨m, w⟩ := p
    unfold accFind at h
    unfold accPut
    split at h
    · cases h
    · rename_i hne
      rw [if_neg hne, ih h]

/-- The value put last stands. -/
theorem accPut_accPut (l : List (String × Word)) (n : String) (v w : Word) :
    accPut (accPut l n v) n w = accPut l n w := by
  induction l with
  | nil => rfl
  | cons p rest ih =>
    obtain ⟨m, u⟩ := p
    by_cases hm : m = n <;> simp [accPut, hm, ih]

theorem accPut_of_find {l : List (String × Word)} {n : String} {old : Word} (h : accFind l n = some old) :
    accPut l n old = l := by
  induction l with
  | nil => rfl
  | cons p rest ih =>
    obtain ⟨m, w⟩ := p
    unfold accFind at h
    by_cases hm : m = n
    · rw [if_pos hm] at h
      simp [accPut, hm, Option.some.inj h]
    · rw [if_neg hm] at h
      simp [accPut, hm, ih h]

theorem State.writeAcc_acc (s : State) (n : String) (v : Word) : (s.writeAcc n v).acc = accPut s.acc n v := by
  cases hf : accFind s.acc n with
  | none => rw [s.writeAcc_of_eq (.inl hf), accPut_of_none hf]
  | some old =>
    by_cases h : old = v
    · rw [s.writeAcc_of_eq (.inr (h ▸ hf)), accPut_of_find (h ▸ hf)]
    · rw [s.writeAcc_of_ne hf h]
      rfl

theorem Csrs.get_set_eq (t : Csrs) (c d : Csr) (v : Word) :
    (t.set c v).get d = if d.backing = c.backing then v else t.get d := by
  cases c <;> cases d <;> rfl

theorem Csrs.set_set (t : Csrs) (c : Csr) (v w : Word) : (t.set c v).set c w = t.set c w := by
  cases c <;> rfl

/-! ### Each write as the replacement of one field -/

section

variable (s : State)

theorem State.writeX_contents (r : Reg) (v : Word) : SameContents { s with x := putX s.x r v } (s.writeX r v) := by
  constructor <;> simp [State.writeX_x]

theorem State.writeF_contents (r : Reg) (v : DWord) :
    SameContents { s with f := s.f.set r.toNat v r.isLt } (s.writeF r v) := by
  constructor <;> simp [State.writeF_f]

theorem State.writePc_contents (v : Word) : SameContents s (s.writePc v) := by
  constructor <;> simp

theorem State.writeAcc_contents (n : String) (v : Word) :
    SameContents { s with acc := accPut s.acc n v } (s.writeAcc n v) := by
  constructor <;> simp [State.writeAcc_acc]

theorem State.csrStore_contents (c : Csr) (v : Word) :
    SameContents { s with csr := s.csr.set c v } (s.csrStore c v) := by
  constructor <;> simp [State.csrStore_csr]

end

/-! ### Undoing a change, on states of the same contents (R663) -/

section

variable {s t : State} (h : SameContents s t)
include h

theorem SameContents.writePc (u v : Word) : SameContents (s.writePc u) (t.writePc v) :=
  (s.writePc_contents u).symm.trans (h.trans (t.writePc_contents v))

theorem SameContents.restoreCell (c : SavedCell) : SameContents (s.restoreCell c) (t.restoreCell c) := by
  rcases c with ⟨a, v⟩ | ⟨k, _ | w⟩
  · exact { h with mem := congrArg (memSet · a v) h.mem }
  · exact { h with text := congrArg (storeErase · k) h.text }
  · exact { h with text := congrArg (storePut · k w) h.text }

end

theorem SameContents.restoreCells {s t : State} (h : SameContents s t) (cells : List SavedCell) :
    SameContents (cells.foldl State.restoreCell s) (cells.foldl State.restoreCell t) := by
  induction cells generalizing s t with
  | nil => exact h
  | cons c rest ih => exact ih (h.restoreCell c)

theorem SameContents.undoChange {s t : State} (h : SameContents s t) (c : Change) :
    SameContents (s.undoChange c) (t.undoChange c) := by
  cases c with
  | gpr r prior =>
    have hx : SameContents { s with x := putX s.x r prior } { t with x := putX t.x r prior } :=
      { h with x := congrArg (putX · r prior) h.x }
    exact (s.writeX_contents r prior).symm.trans (hx.trans (t.writeX_contents r prior))
  | acc name prior =>
    have ha : SameContents { s with acc := accPut s.acc name prior } { t with acc := accPut t.acc name prior } :=
      { h with acc := congrArg (accPut · name prior) h.acc }
    exact (s.writeAcc_contents name prior).symm.trans (ha.trans (t.writeAcc_contents name prior))
  | pc prior => exact h.writePc prior prior
  | fpr r prior =>
    have hf : SameContents { s with f := s.f.set r.toNat prior r.isLt } { t with f := t.f.set r.toNat prior r.isLt } :=
      { h with f := congrArg (·.set r.toNat prior r.isLt) h.f }
    exact (s.writeF_contents r prior).symm.trans (hf.trans (t.writeF_contents r prior))
  | csr c prior =>
    have hc : SameContents { s with csr := s.csr.set c prior } { t with csr := t.csr.set c prior } :=
      { h with csr := fun d hd => by rw [Csrs.get_set_eq, Csrs.get_set_eq, h.csr d hd] }
    exact (s.csrStore_contents c prior).symm.trans (hc.trans (t.csrStore_contents c prior))
  | store a w cells => exact { h.restoreCells cells with }
  | heap prior => exact { h with heapTop := rfl }

/-- Entries undone one after another, newest first (R663). -/
def State.undoAll (s : State) (l : List BackEntry) : State := l.foldl State.applyInverse s

theorem SameContents.applyInverse {s t : State} (h : SameContents s t) (e : BackEntry) :
    SameContents (s.applyInverse e) (t.applyInverse e) := by
  cases he : e.savedPc with
  | none =>
    rw [State.applyInverse_of_no_savedPc he, State.applyInverse_of_no_savedPc he]
    exact h.undoChange e.change
  | some p =>
    rw [State.applyInverse_of_savedPc he, State.applyInverse_of_savedPc he]
    exact (h.undoChange e.change).writePc p p

theorem SameContents.undoAll {s t : State} (h : SameContents s t) (l : List BackEntry) :
    SameContents (s.undoAll l) (t.undoAll l) := by
  induction l generalizing s t with
  | nil => exact h
  | cons e rest ih => exact ih (h.applyInverse e)

/-! ### A store undone: the cells it touched (R660, R663) -/

/-- The cell holds what was saved of it. -/
def State.Holds (s : State) : SavedCell → Prop
  | .byte a prior => memGet s.mem a = prior
  | .text k prior => storeFind s.text k = prior

theorem State.holds_savedCell (s : State) (a : Word) : s.Holds (s.savedCell a) := by
  unfold State.savedCell
  split <;> rfl

/-- States whose cells all hold the same have the same BYTES and the same TEXT, in canonical form. -/
theorem stores_eq_of_holds {s t : State} (hs : s.memOk) (ht : t.memOk) (h : ∀ c, s.Holds c → t.Holds c) :
    t.mem = s.mem ∧ t.text = s.text := by
  refine ⟨mem_ext ht.1 hs.1 fun a => h (.byte a _) rfl, store_ext ?_ ?_ fun k => h (.text k _) rfl⟩
  · exact ((Memory.textWf_iff _).mp ht.2).1
  · exact ((Memory.textWf_iff _).mp hs.2).1

/-- A statement put back, present or absent. -/
theorem State.restoreCell_text_find {s : State} (hs : s.memOk) (k b : Nat) (prior : Option Word) :
    storeFind (s.restoreCell (.text k prior)).text b = if b = k then prior else storeFind s.text b := by
  cases prior with
  | none => exact storeFind_erase ((Memory.textWf_iff _).mp hs.2).1 k b
  | some w => exact storeFind_put s.text k b w

theorem State.restoreCell_memOk {s : State} (hs : s.memOk) {c : SavedCell} (hc : cellOk c) :
    (s.restoreCell c).memOk := by
  match c, hc with
  | .byte _ v, ha => exact ⟨memSet_wf hs.1 ha v, hs.2⟩
  | .text _ (some w), ⟨hlt, hmod⟩ => exact ⟨hs.1, textPut_wf hs.2 hlt hmod w⟩
  | .text k none, _ => exact ⟨hs.1, textErase_wf hs.2 k⟩

/-- Putting back a cell of `s` makes that cell hold what `s` holds, and no other cell hold anything else. -/
theorem State.restoreCell_holds {s t : State} (ht : t.memOk) {c d : SavedCell} (hc : s.Holds c) (hd : s.Holds d)
    (h : c = d ∨ t.Holds d) : (t.restoreCell c).Holds d := by
  rcases c with ⟨a, v⟩ | ⟨k, p⟩ <;> rcases d with ⟨b, w⟩ | ⟨j, q⟩
  · refine (memGet_memSet (Memory.wf_keysRise ht.1) a b v).trans ?_
    split
    · rename_i hab
      subst hab
      exact hc.symm.trans hd
    · rename_i hab
      exact h.resolve_left fun he => hab (SavedCell.byte.inj he).1.symm
  · exact h.resolve_left (by simp)
  · have hmem : (t.restoreCell (.text k p)).mem = t.mem := by cases p <;> rfl
    exact (congrArg (memGet · b) hmem).trans (h.resolve_left (by simp))
  · refine (State.restoreCell_text_find ht k j p).trans ?_
    split
    · rename_i hjk
      subst hjk
      exact hc.symm.trans hd
    · rename_i hjk
      exact h.resolve_left fun he => hjk (SavedCell.text.inj he).1.symm

/-- Cells of `s` put back: each holds what `s` holds, and so does every other cell that did. -/
theorem State.restoreCells_holds {s : State} {cells : List SavedCell} (hok : ∀ c ∈ cells, cellOk c)
    (hcells : ∀ c ∈ cells, s.Holds c) {t : State} (ht : t.memOk) {d : SavedCell} (hd : s.Holds d)
    (h : d ∈ cells ∨ t.Holds d) :
    (cells.foldl State.restoreCell t).memOk ∧ (cells.foldl State.restoreCell t).Holds d := by
  induction cells generalizing t with
  | nil => exact ⟨ht, h.resolve_left (by simp)⟩
  | cons c rest ih =>
    obtain ⟨hc, hrest⟩ := List.forall_mem_cons.mp hcells
    obtain ⟨hcok, hrestok⟩ := List.forall_mem_cons.mp hok
    refine ih hrestok hrest (State.restoreCell_memOk ht hcok) ?_
    rcases h with h | h
    · rcases List.mem_cons.mp h with rfl | h
      · exact .inr (State.restoreCell_holds ht hc hd (.inl rfl))
      · exact .inl h
    · exact .inr (State.restoreCell_holds ht hc hd (.inr h))

/-- A byte write leaves every cell but the one it saves (R162). -/
theorem State.setByte_holds {s t : State} (hcfg : t.cfg = s.cfg) (ht : t.memOk) (a : Word) (b : Byte) {c : SavedCell}
    (hc : s.Holds c) (h : t.Holds c) : c = s.savedCell a ∨ (t.setByte a b).Holds c := by
  unfold State.setByte State.savedCell
  rw [hcfg]
  split
  · cases c with
    | byte x v => exact .inr h
    | text k p =>
      by_cases hk : k = textKey a
      · exact .inl (by rw [← hk, show storeFind s.text k = p from hc])
      · exact .inr ((storeFind_put t.text (textKey a) k _).trans ((if_neg hk).trans h))
  · cases c with
    | byte x v =>
      by_cases hx : x = a.toNat
      · exact .inl (by rw [← hx, show memGet s.mem x = v from hc])
      · exact .inr ((memGet_memSet (Memory.wf_keysRise ht.1) a.toNat x b).trans ((if_neg hx).trans h))
    | text k p => exact .inr h

/-- A run of byte writes leaves every cell but the ones it saves. -/
theorem State.setBytes_holds {s t : State} (hcfg : t.cfg = s.cfg) (ht : t.memOk) (a v : Word) (n : Nat) {c : SavedCell}
    (hc : s.Holds c) (h : t.Holds c) :
    c ∈ (List.range n).map (fun i => s.savedCell (a + BitVec.ofNat 32 i)) ∨ (t.setBytes a v n).Holds c := by
  induction n with
  | zero => exact .inr h
  | succ n ih =>
    rw [List.range_succ, List.map_append, List.mem_append]
    rcases ih with hin | hout
    · exact .inl (.inl hin)
    · rcases State.setByte_holds ((t.setBytes_cfg a v n).trans hcfg) (State.setBytes_memOk ht a v n)
        (a + BitVec.ofNat 32 n) (byteOf v n) hc hout with h | h
      · exact .inl (.inr (by simp [h]))
      · exact .inr h

/-- Undoing a store puts back every cell it touched (R663). -/
theorem State.undoChange_setBytes {s t : State} (hs : s.memOk) (hsame : SameContents s t) (hcfg : t.cfg = s.cfg)
    (a v : Word) (w : Width) :
    SameContents s ((t.setBytes a v (bytesOf w)).undoChange (.store a w (s.savedCells a w))) := by
  have ht : t.memOk := State.memOk_of_eq hs hsame.mem hsame.text
  have hcells : ∀ c ∈ s.savedCells a w, s.Holds c := by
    intro c hc
    obtain ⟨i, -, rfl⟩ := List.mem_map.mp hc
    exact s.holds_savedCell _
  have hback (c : SavedCell) (hc : s.Holds c) :=
    State.restoreCells_holds (s.savedCells_ok a w) hcells (State.setBytes_memOk ht a v (bytesOf w)) hc
      (State.setBytes_holds hcfg ht a v (bytesOf w) hc (by
        cases c
        · exact (congrArg (memGet · _) hsame.mem).trans hc
        · exact (congrArg (storeFind · _) hsame.text).trans hc))
  obtain ⟨hmem, htext⟩ := stores_eq_of_holds hs (hback (.byte 0 _) rfl).1 fun c hc => (hback c hc).2
  obtain ⟨mem, text, he⟩ := State.restoreCells_eq (s.savedCells a w) (t.setBytes a v (bytesOf w))
  rw [he] at hmem htext
  have hu : SameContents s { t.setBytes a v (bytesOf w) with mem := mem, text := text } :=
    ⟨by simp [hsame.x], by simp [hsame.f], by simp [hsame.acc],
      fun c hc => by simp [hsame.csr c hc], hmem, htext, by simp [hsame.heapTop]⟩
  unfold State.undoChange
  dsimp only
  rw [he]
  exact { hu with }

/-! ### Sets and stores that undo can take back (R52, R660, R663) -/

/-- From `s` to `t` one entry is recorded, and its change, undone, brings `pc` and, where memory is in its canonical
form, the contents of `s` back. -/
def Records (s t : State) : Prop :=
  ∃ c, t.ring = (s.record c).ring ∧ (t.undoChange c).pc = s.pc ∧ (s.memOk → SameContents s (t.undoChange c))

/-- A write that amounts to the replacement `u` of a field can be undone where `u` can. -/
theorem Records.of_contents {s t u : State} {c : Change} (hring : t.ring = (s.record c).ring) (h : SameContents u t)
    (hpc : (t.undoChange c).pc = s.pc) (hu : SameContents s (u.undoChange c)) : Records s t :=
  ⟨c, hring, hpc, fun _ => hu.trans (h.undoChange c)⟩

section

variable (s : State)

theorem putX_putX_readX (r : Reg) (v : Word) : putX (putX s.x r v) r (s.readX r) = s.x := by
  unfold putX State.readX
  split_ifs
  · rfl
  · rw [Vector.set_set, Vector.set_getElem_self]

theorem State.writeX_records {r : Reg} {v : Word} (h0 : r ≠ 0) (h : s.readX r ≠ v) : Records s (s.writeX r v) := by
  refine .of_contents (c := .gpr r (s.readX r)) (by rw [s.writeX_of_ne h0 h]; rfl) (s.writeX_contents r v)
    (by simp [State.undoChange]) ?_
  have hback := State.writeX_contents { s with x := putX s.x r v } r (s.readX r)
  dsimp only at hback
  rwa [putX_putX_readX] at hback

theorem State.writeF_records {r : Reg} {v : DWord} (h : s.readF r ≠ v) : Records s (s.writeF r v) := by
  refine .of_contents (c := .fpr r (s.readF r)) (by rw [s.writeF_of_ne h]; rfl) (s.writeF_contents r v)
    (by simp [State.undoChange]) ?_
  have hback := State.writeF_contents { s with f := s.f.set r.toNat v r.isLt } r (s.readF r)
  dsimp only at hback
  rwa [Vector.set_set, State.readF, Vector.set_getElem_self] at hback

theorem State.writePc_records {v : Word} (h : s.pc ≠ v) : Records s (s.writePc v) :=
  .of_contents (c := .pc s.pc) (by rw [s.writePc_of_ne h]; rfl) (u := s) (s.writePc_contents v)
    (State.writePc_pc _ _) (s.writePc_contents s.pc)

theorem State.csrWrite_records {c : Csr} {v : Word} (h : s.csr ≠ csrWritten s.csr c v) :
    Records s (s.csrWrite c v) := by
  have hc : c.isReadOnly = false := by
    cases hc : c.isReadOnly with
    | true => exact absurd (csrWritten_of_readOnly s.csr hc v).symm h
    | false => rfl
  refine .of_contents (c := .csr c.backing (s.csr.get c.backing)) (by rw [s.csrWrite_of_changes h]; rfl)
    (u := { s with csr := s.csr.set c.backing ((csrWritten s.csr c v).get c.backing) }) ?_
    (by simp [State.undoChange]) ?_
  · rw [s.csrWrite_eq_csrStore hc]
    exact s.csrStore_contents _ _
  · have hback := State.csrStore_contents
      { s with csr := s.csr.set c.backing ((csrWritten s.csr c v).get c.backing) } c.backing (s.csr.get c.backing)
    dsimp only at hback
    rwa [Csrs.set_set, Csrs.set_get] at hback

theorem State.writeAcc_records {n : String} {old v : Word} (hf : accFind s.acc n = some old) (h : old ≠ v) :
    Records s (s.writeAcc n v) := by
  refine .of_contents (c := .acc n old) (by rw [s.writeAcc_of_ne hf h]; rfl) (s.writeAcc_contents n v)
    (by simp [State.undoChange]) ?_
  have hback := State.writeAcc_contents { s with acc := accPut s.acc n v } n old
  dsimp only at hback
  rwa [accPut_accPut, accPut_of_find hf] at hback

/-- A set of a register records its change and can be undone, or does nothing. -/
theorem State.setLoc_records (l : RegLoc) (v : DWord) : s.setLoc l v = s ∨ Records s (s.setLoc l v) := by
  cases l with
  | gpr r =>
    by_cases h : r = 0 ∨ s.readX r = v.setWidth 32
    · exact .inl (s.writeX_of_same h)
    · obtain ⟨h0, hne⟩ := not_or.mp h
      exact .inr (s.writeX_records h0 hne)
  | pc =>
    by_cases h : s.pc = v.setWidth 32
    · exact .inl (if_pos h)
    · exact .inr (s.writePc_records h)
  | fpr r =>
    by_cases h : s.readF r = v
    · exact .inl (if_pos h)
    · exact .inr (s.writeF_records h)
  | csr c =>
    by_cases h : s.csr = csrWritten s.csr c (v.setWidth 32)
    · exact .inl (s.csrWrite_of_same h)
    · exact .inr (s.csrWrite_records h)
  | acc n =>
    cases hf : accFind s.acc n with
    | none => exact .inl (s.writeAcc_of_eq (.inl hf))
    | some old =>
      by_cases h : old = v.setWidth 32
      · exact .inl (s.writeAcc_of_eq (.inr (h ▸ hf)))
      · exact .inr (s.writeAcc_records hf h)

/-- Recording changes no contents. -/
theorem State.record_contents (c : Change) : SameContents s (s.record c) := by
  constructor <;> simp

theorem State.emit_contents (o : Output) : SameContents s (s.emit o) := { SameContents.refl s with }

/-- A raw write records its cells and can be undone, or does nothing. -/
theorem State.rawWrite_records (a : Word) (w : Width) (v : Word) :
    s.rawWrite a w v = s ∨ Records s (s.rawWrite a w v) := by
  by_cases h : s.storeChanges a w v = true
  · rw [s.rawWrite_of_changes h]
    refine .inr ⟨.store a w (s.savedCells a w), by simp, ?_, fun hs => ?_⟩
    · obtain ⟨mem, text, he⟩ := State.restoreCells_eq (s.savedCells a w) (((s.record
        (.store a w (s.savedCells a w))).setBytes a v (bytesOf w)).emit (.memChanged a w (maskWidth w v)))
      simp [State.undoChange, he]
    · have hback := State.undoChange_setBytes hs (s.record_contents (.store a w (s.savedCells a w))) (by simp) a v w
      exact hback.trans ((State.emit_contents _ _).undoChange _)
  · exact .inl (if_neg h)

end

/-! ### The moves of an iteration -/

/-- From `s` to `t` an entry is recorded that undoes the change, or nothing that undo restores has changed. -/
def UndoneBy (s t : State) : Prop :=
  (t.ring = s.ring ∧ SameContents s t ∧ t.pc = s.pc ∧ (t.iter.pcSet = true → s.iter.pcSet = true)) ∨ Records s t

/-- From `s` to `t` the parameters, the step number, the BackStepper's switch, what the iteration's entries carry and
the canonical form of memory are kept. -/
structure SameIteration (s t : State) : Prop where
  cfg : t.cfg = s.cfg
  seq : t.seq = s.seq
  recording : t.recording = s.recording
  cur : t.iter.cur = s.iter.cur
  step : t.iter.step = s.iter.step
  cycles : t.iter.cycles = s.iter.cycles
  instret : t.iter.instret = s.iter.instret
  memOk : s.memOk → t.memOk

theorem SameIteration.refl (s : State) : SameIteration s s := ⟨rfl, rfl, rfl, rfl, rfl, rfl, rfl, id⟩

theorem SameIteration.trans {s t u : State} (h : SameIteration s t) (h' : SameIteration t u) : SameIteration s u :=
  ⟨h'.cfg.trans h.cfg, h'.seq.trans h.seq, h'.recording.trans h.recording, h'.cur.trans h.cur,
    h'.step.trans h.step, h'.cycles.trans h.cycles, h'.instret.trans h.instret, h'.memOk ∘ h.memOk⟩

/-- A move of the machine within one iteration, which undo can take back. -/
structure Move (s t : State) : Prop extends SameIteration s t where
  undone : UndoneBy s t

/-- A sequence of moves. -/
abbrev Moves : State → State → Prop := Relation.ReflTransGen Move

theorem moves_sameIteration {s t : State} (h : Moves s t) : SameIteration s t := by
  induction h with
  | refl => exact .refl s
  | tail _ hm ih => exact ih.trans hm.toSameIteration

/-- A move that records nothing and changes nothing that undo restores. -/
theorem Move.of_same {s t : State} (hcfg : t.cfg = s.cfg) (hseq : t.seq = s.seq) (hrec : t.recording = s.recording)
    (hring : t.ring = s.ring) (hiter : t.iter = s.iter) (hpc : t.pc = s.pc)
    (h : SameContents s t) : Move s t where
  cfg := hcfg
  seq := hseq
  recording := hrec
  cur := by rw [hiter]
  step := by rw [hiter]
  cycles := by rw [hiter]
  instret := by rw [hiter]
  memOk hs := State.memOk_of_eq hs h.mem h.text
  undone := .inl ⟨hring, h, hpc, fun hp => hiter ▸ hp⟩

theorem Move.refl (s : State) : Move s s := .of_same rfl rfl rfl rfl rfl rfl (.refl s)

/-- A move that leaves the iteration's variables and the control part alone, and records or does nothing. -/
theorem Move.of_records {s t : State} (h : SameControl s t) (hmem : s.memOk → t.memOk)
    (hr : t = s ∨ Records s t) : Move s t where
  cfg := h.cfg
  seq := h.seq
  recording := h.recording
  cur := by rw [h.iter]
  step := by rw [h.iter]
  cycles := by rw [h.iter]
  instret := by rw [h.iter]
  memOk := hmem
  undone := by
    rcases hr with rfl | hrec
    · exact .inl ⟨rfl, .refl _, rfl, id⟩
    · exact .inr hrec

theorem Move.setLoc (s : State) (l : RegLoc) (v : DWord) : Move s (s.setLoc l v) :=
  .of_records (s.setLoc_sameControl l v)
    (fun hs => State.memOk_of_eq hs (by cases l <;> simp [State.setLoc]) (by cases l <;> simp [State.setLoc]))
    (s.setLoc_records l v)

theorem Move.rawWrite (s : State) (a : Word) (w : Width) (v : Word) : Move s (s.rawWrite a w v) :=
  .of_records (s.rawWrite_sameControl a w v) (fun hs => State.rawWrite_memOk hs a w v)
    (s.rawWrite_records a w v)

/-- A word widened for the host and cut again. -/
theorem setWidth_64_32 (v : Word) : (v.setWidth 64).setWidth 32 = v :=
  (BitVec.setWidth_setWidth_of_le v (by decide)).trans (BitVec.setWidth_eq v)

theorem Move.writeX (s : State) (r : Reg) (v : Word) : Move s (s.writeX r v) := by
  simpa [State.setLoc, setWidth_64_32] using Move.setLoc s (.gpr r) (v.setWidth 64)

theorem Move.writeF (s : State) (r : Reg) (v : DWord) : Move s (s.writeF r v) := Move.setLoc s (.fpr r) v

theorem Move.writePc (s : State) (v : Word) : Move s (s.writePc v) := by
  simpa [State.setLoc, setWidth_64_32] using Move.setLoc s .pc (v.setWidth 64)

theorem Move.csrWrite (s : State) (c : Csr) (v : Word) : Move s (s.csrWrite c v) := by
  simpa [State.setLoc, setWidth_64_32] using Move.setLoc s (.csr c) (v.setWidth 64)

/-- A jump is recorded, also where it leaves `pc` as it is (R663). -/
theorem State.jumpTo_records (s : State) (v : Word) : Records s (s.jumpTo v) := by
  refine .of_contents (c := .pc s.pc) (s.jumpTo_ring v) (u := s) ?_ (State.writePc_pc _ _) (s.writePc_contents s.pc)
  constructor <;> simp

theorem Move.jumpTo (s : State) (v : Word) : Move s (s.jumpTo v) where
  cfg := by simp
  seq := by simp
  recording := by simp
  cur := by simp
  step := by simp
  cycles := by simp
  instret := by simp
  memOk hs := State.memOk_of_eq hs (by simp) (by simp)
  undone := .inr (s.jumpTo_records v)

theorem Move.heap (s : State) (top : Nat) : Move s { s.record (.heap s.heapTop) with heapTop := top } where
  cfg := s.record_cfg _
  seq := s.record_seq _
  recording := s.record_recording _
  cur := congrArg Iter.cur (s.record_iter _)
  step := congrArg Iter.step (s.record_iter _)
  cycles := congrArg Iter.cycles (s.record_iter _)
  instret := congrArg Iter.instret (s.record_iter _)
  memOk hs := State.memOk_of_eq hs (s.record_mem _) (s.record_text _)
  undone := .inr ⟨.heap s.heapTop, rfl, s.record_pc _,
    fun _ => { s.record_contents (.heap s.heapTop) with heapTop := rfl }⟩

/-- Raising one of the iteration's flags other than `pc_set` is a move. -/
theorem Move.flags (s : State) (hit raised : Bool) :
    Move s { s with iter := { s.iter with breakpointHit := hit, raised := raised } } where
  cfg := rfl
  seq := rfl
  recording := rfl
  cur := rfl
  step := rfl
  cycles := rfl
  instret := rfl
  memOk hs := hs
  undone := .inl ⟨rfl, { SameContents.refl s with }, rfl, id⟩

theorem action_move {s t : State} (h : Action s t) : Move s t := by
  cases h with
  | gpr r v => exact .writeX s r v
  | fpr r v => exact .writeF s r v
  | csr c v => exact .csrWrite s c v
  | store a w v => exact .rawWrite s a w v
  | jump v => exact .jumpTo s v
  | heap top => exact .heap s top
  | draw => exact .of_same rfl rfl rfl rfl rfl rfl { SameContents.refl s with }
  | breakpoint => exact .flags s true s.iter.raised

theorem actions_moves {s t : State} (h : Actions s t) : Moves s t :=
  Relation.ReflTransGen.mono (fun _ _ => action_move) _ _ h

/-! ### An iteration as a sequence of moves (R620) -/

theorem Move.advance (s : State) : Move s s.advance := by
  unfold State.advance
  split
  · exact .refl s
  · exact .writePc s _

theorem Move.stop (s : State) (r : StopReason) : Move s (s.stop r) :=
  .of_same rfl rfl rfl rfl rfl rfl { SameContents.refl s with }

/-- The controller is no part of what undo restores (R664). -/
theorem Move.withCtl (s : State) (c : Controller) : Move s { s with ctl := c } :=
  .of_same rfl rfl rfl rfl rfl rfl { SameContents.refl s with }

/-- The counters and the time are not recorded (R85, R650). -/
theorem Move.withCounters (s n : State) : Move s (s.withCounters n) :=
  .of_same rfl rfl rfl rfl rfl rfl
    { SameContents.refl s with csr := fun _ hc => Csrs.get_withCounters hc s.csr n.csr }

theorem Move.terminate (s : State) : Move s s.terminate := by
  rw [State.terminate_frame]
  exact .of_same rfl rfl rfl rfl rfl rfl { SameContents.refl s with }

theorem Move.clearCheck (s : State) : Move s s.clearCheck := .withCtl s _

theorem Move.mirrorUip (s : State) : Move s s.mirrorUip := .csrWrite s .uip _

theorem Move.countStep (s : State) : Move s { s with steps := s.steps + 1 } :=
  .of_same rfl rfl rfl rfl rfl rfl { SameContents.refl s with }

theorem moves_writeTrapRecord (s : State) (cause epc tval : Word) : Moves s (s.writeTrapRecord cause epc tval) :=
  ((Relation.ReflTransGen.single (.csrWrite s _ _)).tail (.csrWrite _ _ _)).tail (.csrWrite _ _ _)

theorem moves_deliverSync (s : State) (r : SyncRecord) : Moves s (s.deliverSync r) := by
  have hrec := moves_writeTrapRecord s (excCode r.exc) r.savedPc (excTval r.exc)
  unfold State.deliverSync
  split
  · exact (hrec.tail (.csrWrite _ _ _)).tail (.writePc _ _)
  · exact hrec.tail (.stop _ _)

theorem moves_interruptEntry (s : State) (code p : Word) : Moves s (s.interruptEntry code p) := by
  have hrec := moves_writeTrapRecord s (0x80000000 ||| code) s.pc p
  unfold State.interruptEntry
  dsimp only
  split
  · exact (hrec.tail (.csrWrite _ _ _)).tail (.writePc _ _)
  · exact hrec.tail (.stop _ _)

theorem moves_serviceIrq (s : State) : Moves s s.serviceIrq := by
  rcases s.serviceIrq_cases with h | ⟨p, -, h⟩ | ⟨-, h⟩ | ⟨p, -, h⟩ <;> rw [h]
  · exact (moves_interruptEntry _ 8 p).head (.withCtl s _)
  · exact (moves_interruptEntry _ 0 0).head (.csrWrite s _ _)
  · exact (moves_interruptEntry _ 4 p).head (.withCtl s _)

theorem moves_conclude (s : State) : Moves s s.conclude := by
  unfold State.conclude
  split
  · exact .single (.countStep s)
  · dsimp only
    rw [State.countRetired_drawTime_eq]
    have hserviced := (moves_serviceIrq (s.withCounters s.countRetired.drawTime)).head (.withCounters s _)
    exact (((hserviced.tail (.clearCheck _)).tail (.mirrorUip _)).tail (.countStep _)).tail (.terminate _)

/-- Step 4 has been reached: the behaviour has jumped, or `pc` stands past the instruction (R620, R623). -/
def State.Advanced (s : State) : Prop := s.iter.pcSet = true ∨ s.pc = s.iter.cur + 4

theorem State.advance_advanced (s : State) : s.advance.Advanced := by
  unfold State.Advanced
  rw [State.advance_iter, State.advance_pc]
  by_cases h : s.iter.pcSet = true
  · exact .inl h
  · exact .inr (if_neg h)

/-- Taking an exception advances `pc` first (R611, R623). -/
theorem moves_trapped (s : State) (e : Exc) : ∃ v, Moves s v ∧ v.Advanced ∧ Moves v (s.trapped e) := by
  have hraise : Move s { s with iter := { s.iter with raised := true } } := .flags s s.iter.breakpointHit true
  exact ⟨_, (Relation.ReflTransGen.single hraise).tail (.writePc _ (s.iter.cur + 4)),
    .inr (by rw [State.writePc_pc, State.writePc_iter]), moves_deliverSync _ ⟨e, s.iter.cur⟩⟩

/-- The end of a behaviour reaches step 4 or is an exit (R620, R641). -/
theorem finish_moves {b : Behaviour} {m : State} (h : finish b = .next m) :
    (∃ v, Moves b.final v ∧ v.Advanced ∧ Moves v m) ∨ Moves b.final m ∧ m.exited = true := by
  rcases finish_next h with rfl | ⟨e, rfl⟩ | ⟨code, rfl⟩
  · exact .inl ⟨_, .single (.advance _), b.final.advance_advanced, .refl⟩
  · exact .inl (moves_trapped b.final e)
  · exact .inr ⟨.single (.stop _ _), rfl⟩

/-- An iteration is a sequence of moves from its start, which reaches step 4 unless it ends early (R620). -/
theorem iterate_moves {s t : State} (h : iterate s = .next t) : Moves s.beginStep t ∧
    (¬ EndedEarly t → ∃ v, Moves s.beginStep v ∧ v.Advanced ∧ Moves v t) := by
  rcases iterate_next h with rfl | ⟨b, m, hacts, hm, rfl⟩
  · exact ⟨.single (.stop _ _), fun he => absurd (.inr rfl) he⟩
  · have hb := actions_moves hacts
    rcases finish_moves hm with ⟨v, hv, hadv, hvm⟩ | ⟨hbm, hexit⟩
    · have hvt := hvm.trans (moves_conclude m)
      exact ⟨(hb.trans hv).trans hvt, fun _ => ⟨v, hb.trans hv, hadv, hvt⟩⟩
    · refine ⟨(hb.trans hbm).trans (moves_conclude m), fun he => absurd (.inl ?_) he⟩
      rw [State.conclude_of_exited hexit]
      exact hexit

/-! ### Step numbers (R661, R701) -/

/-- Within the iteration that starts at `s`: the parameters of `s`, the next step number, and no entry recorded since
without it. -/
structure Numbered (s t : State) : Prop where
  cfg : t.cfg = s.cfg
  seq : t.seq = s.seq + 1
  step : t.iter.step = some (s.seq + 1)
  ring : ∀ e ∈ t.ring, e ∈ s.ring ∨ e.step = some (s.seq + 1)

theorem Numbered.move {s t u : State} (h : Numbered s t) (hm : Move t u) : Numbered s u where
  cfg := hm.cfg.trans h.cfg
  seq := hm.seq.trans h.seq
  step := hm.step.trans h.step
  ring e he := by
    rcases hm.undone with ⟨hring, -⟩ | ⟨c, hring, -⟩
    · exact h.ring e (hring ▸ he)
    · rcases State.mem_record_ring (hring ▸ he) with rfl | he
      · exact .inr h.step
      · exact h.ring e he

theorem Numbered.moves {s t : State} (h : Moves s.beginStep t) : Numbered s t := by
  induction h with
  | refl => exact ⟨rfl, rfl, rfl, fun _ he => .inl he⟩
  | tail _ hm ih => exact ih.move hm

theorem Numbered.iterate {s t : State} (h : iterate s = .next t) : Numbered s t := .moves (iterate_moves h).1

/-- Settles O57: an iteration is a sequence of moves, each of which keeps the numbers; events keep the parameters. -/
theorem stepNumbers : Obligations.StepNumbers := by
  refine ⟨fun s t hrun h => ?_, fun s t h => ?_⟩
  · rw [step_of_running hrun] at h
    have hn := Numbered.iterate h
    exact ⟨hn.seq, hn.ring⟩
  · rcases step_cases s with hs | ⟨r, hs⟩ | ⟨u, hu, hs | hs⟩ <;> rw [hs] at h
    · cases h
    · cases h
    · exact Host.Outcome.next.inj h ▸ hu.cfg u rfl
    · exact (Numbered.iterate h).cfg.trans (hu.cfg u rfl)

/-! ### The entries of an iteration, undone (R661-R665) -/

/-- The entry was recorded in the iteration whose start is `s` (R660). -/
structure EntryOf (s : State) (e : BackEntry) : Prop where
  step : e.step = s.iter.step
  savedPc : e.savedPc = some s.pc
  cycles : e.cycles = s.iter.cycles
  instret : e.instret = s.iter.instret

/-- From the start `s` of an iteration to `t`, the entries `l` were recorded, and undone they bring the contents
back. -/
structure Recorded (s t : State) (l : List BackEntry) : Prop where
  ring : t.ring = l ++ s.ring
  entries : ∀ e ∈ l, EntryOf s e
  contents : SameContents s (t.undoAll l)
  still : l = [] → t.pc = s.pc ∧ (t.iter.pcSet = true → s.iter.pcSet = true)

/-- With room left in the ring, an entry is pushed and none is lost (R662). -/
theorem State.record_ring_of_room {s : State} (hrec : s.recording = true)
    (h : s.ring.length < s.cfg.backstepCapacity) (c : Change) : (s.record c).ring = s.entryOf c :: s.ring := by
  rw [State.record_ring, if_pos hrec]
  exact List.take_of_length_le h

/-- Where there is room after a recorded change, there was room before. -/
theorem State.room_of_record {s : State} (hrec : s.recording = true) {c : Change}
    (h : (s.record c).ring.length < s.cfg.backstepCapacity) : s.ring.length < s.cfg.backstepCapacity := by
  rw [State.record_ring, if_pos hrec, List.length_take, List.length_cons] at h
  omega

/-- The ring is no shorter after a move, while there is room. -/
theorem Move.ring_le {s t : State} (h : Move s t) (hrec : s.recording = true)
    (hroom : t.ring.length < t.cfg.backstepCapacity) : s.ring.length ≤ t.ring.length := by
  rcases h.undone with ⟨hring, -⟩ | ⟨c, hring, -⟩
  · rw [hring]
  · rw [hring, h.cfg] at hroom
    rw [hring, State.record_ring_of_room hrec (State.room_of_record hrec hroom)]
    exact Nat.le_succ _

theorem moves_ring_le {s t : State} (h : Moves s t) (hrec : s.recording = true)
    (hroom : t.ring.length < t.cfg.backstepCapacity) : s.ring.length ≤ t.ring.length := by
  induction h with
  | refl => exact le_rfl
  | tail hmoves hm ih =>
    have hle := hm.ring_le ((moves_sameIteration hmoves).recording.trans hrec) hroom
    exact (ih (hm.cfg ▸ lt_of_le_of_lt hle hroom)).trans hle

/-- The start of an iteration of a recording machine. -/
structure Begins (s : State) : Prop where
  memOk : s.memOk
  recording : s.recording = true
  cur : s.iter.cur = s.pc
  step : s.iter.step.isSome = true
  pcSet : s.iter.pcSet = false

/-- The entry a move of an iteration pushes carries the iteration's own pc, step number and counts. -/
theorem Begins.entryOf {s t : State} (hs : Begins s) (h : SameIteration s t) (c : Change) :
    EntryOf s (t.entryOf c) where
  step := h.step
  savedPc := by
    obtain ⟨g, hg⟩ := Option.isSome_iff_exists.mp hs.step
    simp [State.entryOf, h.step, hg, h.cur, hs.cur]
  cycles := h.cycles
  instret := h.instret

theorem Recorded.move {s t u : State} {l : List BackEntry} (h : Recorded s t l) (hs : Begins s)
    (hst : SameIteration s t) (hm : Move t u) (hroom : u.ring.length < u.cfg.backstepCapacity) :
    ∃ l, Recorded s u l := by
  rcases hm.undone with ⟨hring, hsame, hpc, hset⟩ | ⟨c, hring, -, hback⟩
  · exact ⟨l, hring.trans h.ring, h.entries, h.contents.trans (hsame.undoAll l),
      fun hl => ⟨hpc.trans (h.still hl).1, fun hu => (h.still hl).2 (hset hu)⟩⟩
  · have hrec := hst.recording.trans hs.recording
    have hentry := hs.entryOf hst c
    have hpushed := State.record_ring_of_room hrec
      (State.room_of_record hrec (by rw [← hring, ← hm.cfg]; exact hroom)) c
    have hinverse : SameContents t (u.applyInverse (t.entryOf c)) := by
      rw [State.applyInverse_of_savedPc hentry.savedPc]
      exact (hback (hst.memOk hs.memOk)).trans (State.writePc_contents _ _)
    refine ⟨t.entryOf c :: l, ?_, List.forall_mem_cons.mpr ⟨hentry, h.entries⟩,
      h.contents.trans (hinverse.undoAll l), nofun⟩
    rw [hring, hpushed, h.ring]
    rfl

/-- What an iteration records, while there is room in the ring, is what undo needs. -/
theorem moves_recorded {s t : State} (h : Moves s t) (hs : Begins s)
    (hroom : t.ring.length < t.cfg.backstepCapacity) : ∃ l, Recorded s t l := by
  induction h with
  | refl => exact ⟨[], rfl, nofun, .refl s, fun _ => ⟨rfl, id⟩⟩
  | tail hmoves hm ih =>
    have hsame := moves_sameIteration hmoves
    have hle := hm.ring_le (hsame.recording.trans hs.recording) hroom
    obtain ⟨l, hl⟩ := ih (hm.cfg ▸ lt_of_le_of_lt hle hroom)
    exact hl.move hs hsame hm hroom

/-- An iteration that has reached step 4 has recorded an entry (R663). -/
theorem Recorded.ne_nil {s t : State} {l : List BackEntry} (h : Recorded s t l) (hs : Begins s)
    (hst : SameIteration s t) (ht : t.Advanced) : l ≠ [] := by
  intro hl
  obtain ⟨hpc, hset⟩ := h.still hl
  rcases ht with ht | ht
  · exact absurd (hs.pcSet.symm.trans (hset ht)) (by decide)
  · rw [hpc, hst.cur, hs.cur] at ht
    exact absurd ht (by simp)

/-! ### Undo as the entries undone (R663) -/

/-- The entries of one step at the top of the ring are undone, and the entries below stay. -/
theorem State.undoGroup_append (s : State) {g : Nat} {l rest : List BackEntry} (hl : ∀ e ∈ l, e.step = some g)
    (hrest : ∀ e ∈ rest, e.step ≠ some g) : s.undoGroup (some g) (l ++ rest) = { s.undoAll l with ring := rest } := by
  induction l generalizing s with
  | nil =>
    cases rest with
    | nil => rfl
    | cons e tail => exact if_neg (by simpa using hrest e (by simp))
  | cons e l ih =>
    obtain ⟨he, hl⟩ := List.forall_mem_cons.mp hl
    exact (if_pos (by simp [he])).trans (ih _ hl)

/-- The entry of a boundary write is undone alone. -/
theorem State.undoGroup_none (s : State) (l : List BackEntry) : s.undoGroup none l = { s with ring := l } := by
  cases l with
  | nil => rfl
  | cons e rest => exact if_neg (by simp)

/-- Entries that all save one PC leave it in `pc`. -/
theorem State.undoAll_pc {p : Word} {l : List BackEntry} (hl : ∀ e ∈ l, e.savedPc = some p) {s : State}
    (h : l = [] → s.pc = p) : (s.undoAll l).pc = p := by
  induction l generalizing s with
  | nil => exact h rfl
  | cons e l ih =>
    obtain ⟨he, hl⟩ := List.forall_mem_cons.mp hl
    refine ih hl fun _ => ?_
    rw [State.applyInverse_of_savedPc he, State.writePc_pc]

theorem State.undoAll_sameControl (s : State) (l : List BackEntry) : SameControl s (s.undoAll l) := by
  induction l generalizing s with
  | nil => exact .refl s
  | cons e l ih => exact (s.applyInverse_sameControl e).trans (ih _)

/-- Undoing a change reaches no read-only register (R84). -/
theorem State.undoChange_readOnly (s : State) {c : Change} (hc : changeOk c) {d : Csr} (hd : d.isReadOnly = true) :
    (s.undoChange c).csr.get d = s.csr.get d := by
  cases c with
  | csr c prior =>
    have hne : d.backing ≠ c.backing := fun he => by
      have hro := congrArg Csr.isReadOnly he
      rw [d.isReadOnly_backing, c.isReadOnly_backing, hd, isReadOnly_of_csrPriorOk hc] at hro
      exact absurd hro (by decide)
    exact (congrArg (Csrs.get · d) (s.csrStore_csr c prior)).trans
      ((Csrs.get_set_eq s.csr c d prior).trans (if_neg hne))
  | store a w cells =>
    obtain ⟨mem, text, he⟩ := State.restoreCells_eq cells s
    simp [State.undoChange, he]
  | _ => simp [State.undoChange]

theorem State.undoAll_readOnly {l : List BackEntry} (hl : ∀ e ∈ l, changeOk e.change) (s : State) {d : Csr}
    (hd : d.isReadOnly = true) : (s.undoAll l).csr.get d = s.csr.get d := by
  induction l generalizing s with
  | nil => rfl
  | cons e l ih =>
    obtain ⟨he, hl⟩ := List.forall_mem_cons.mp hl
    refine (ih hl _).trans ?_
    cases hp : e.savedPc with
    | none => rw [State.applyInverse_of_no_savedPc hp, s.undoChange_readOnly he hd]
    | some p => rw [State.applyInverse_of_savedPc hp, State.writePc_csr, s.undoChange_readOnly he hd]

/-! ### The law of step and undo (R665) -/

/-- Undoing what an iteration recorded: every entry undone, the older ones kept, and the counts put back (R663). -/
theorem State.undo_of_recorded {s t : State} {l : List BackEntry} (h : Recorded s t l) (hne : l ≠ []) {g : Nat}
    (hg : s.iter.step = some g) (hold : ∀ e ∈ s.ring, e.step ≠ some g) : t.undo =
    { ({ t.recordingOff.undoAll l with
          ring := s.ring, cycles := s.iter.cycles, instret := s.iter.instret } : State).showCounts with
      recording := t.cfg.backstepEnabled, driver := .stopped .userStop } := by
  obtain ⟨e, rest, rfl⟩ := List.exists_cons_of_ne_nil hne
  obtain ⟨he, hrest⟩ := List.forall_mem_cons.mp h.entries
  have hundone : t.undone e (rest ++ s.ring) =
      { t.recordingOff.undoAll (e :: rest) with ring := s.ring } := by
    rw [State.undone, he.step.trans hg, State.undoGroup_append _ (fun d hd => (hrest d hd).step.trans hg) hold]
    rfl
  have hring : t.ring = e :: (rest ++ s.ring) := h.ring
  rw [State.undo_of_cons hring, hundone, State.restoreCounts, if_pos (by rw [he.step, hg]; rfl), he.cycles, he.instret]

/-- Two banks are the same where every stored word is. -/
theorem Csrs.ext_get {t u : Csrs} (h : ∀ c, t.get c = u.get c) : t = u := by
  cases t
  cases u
  simp only [Csrs.mk.injEq]
  exact ⟨h .ustatus, h .fcsr, h .uie, h .utvec, h .uscratch, h .uepc, h .ucause, h .utval, h .uip, h .cycle, h .time,
    h .instret, h .cycleh, h .timeh, h .instreth⟩

/-- The halves of a count that its registers show (R650). -/
theorem Inv.halves {s : State} (h : Inv s) :
    s.cycles.extractLsb' 0 32 = s.csr.cycle ∧ s.cycles.extractLsb' 32 32 = s.csr.cycleh ∧
    s.instret.extractLsb' 0 32 = s.csr.instret ∧ s.instret.extractLsb' 32 32 = s.csr.instreth := by
  rw [← h.cycleShown, ← h.instretShown]
  exact ⟨BitVec.extractLsb'_append_eq_right, BitVec.extractLsb'_append_eq_left, BitVec.extractLsb'_append_eq_right,
    BitVec.extractLsb'_append_eq_left⟩

/-- The start of an iteration from a state of the invariant. -/
theorem Inv.begins {s : State} (h : Inv s) (hrec : s.recording = true) : Begins s.beginStep :=
  ⟨⟨h.memCanonical, h.textCanonical⟩, hrec, rfl, rfl, rfl⟩

/-- An iteration that ran to its end records entries, and they are what undo needs (R661, R663). -/
theorem iterate_recorded {s t : State} (hs : Inv s) (hrec : s.recording = true) (h : iterate s = .next t)
    (hend : ¬ EndedEarly t) (hroom : t.ring.length < t.cfg.backstepCapacity) :
    ∃ l, Recorded s.beginStep t l ∧ l ≠ [] := by
  have hb := hs.begins hrec
  obtain ⟨hmoves, hadv⟩ := iterate_moves h
  obtain ⟨v, hv, hvadv, hvt⟩ := hadv hend
  have hvsame := moves_sameIteration hv
  have hle := moves_ring_le hvt (hvsame.recording.trans hb.recording) hroom
  obtain ⟨l, hl⟩ := moves_recorded hmoves hb hroom
  obtain ⟨k, hk⟩ := moves_recorded hv hb ((moves_sameIteration hvt).cfg ▸ lt_of_le_of_lt hle hroom)
  have hkpos := List.length_pos_of_ne_nil (hk.ne_nil hb hvsame hvadv)
  refine ⟨l, hl, fun hnil => ?_⟩
  rw [hl.ring, hk.ring, hnil, List.length_append, List.length_append, List.length_nil] at hle
  omega

/-- The bank after the counts are put back: what undo restores, the counts as they were, the time as it is. -/
theorem csr_of_undone {s : State} (hs : Inv s) {b : Csrs}
    (hwritable : ∀ c : Csr, c.isReadOnly = false → b.get c = s.csr.get c) :
    { b with cycle := s.cycles.extractLsb' 0 32, cycleh := s.cycles.extractLsb' 32 32,
             instret := s.instret.extractLsb' 0 32, instreth := s.instret.extractLsb' 32 32 } =
      { s.csr with time := b.time, timeh := b.timeh } := by
  obtain ⟨h1, h2, h3, h4⟩ := hs.halves
  rw [h1, h2, h3, h4]
  refine Csrs.ext_get fun c => ?_
  have hw := hwritable c
  cases c
  case cycle | cycleh | instret | instreth | time | timeh => rfl
  all_goals exact hw rfl

/-- The entries of an iteration, undone, bring back its start but for the counts and the time (R661, R665). -/
theorem Recorded.undone {s t : State} {l : List BackEntry} (h : Recorded s.beginStep t l) (hne : l ≠ []) (ht : Inv t) :
    let w := t.recordingOff.undoAll l
    SameContents s w ∧ w.pc = s.pc ∧ w.ctl = t.ctl ∧ w.steps = t.steps ∧
    w.csr.time = t.csr.time ∧ w.csr.timeh = t.csr.timeh := by
  have hchanges : ∀ e ∈ l, changeOk e.change := fun e he =>
    ht.ringChanges e (h.ring ▸ List.mem_append_left _ he)
  have hcontrol := State.undoAll_sameControl t.recordingOff l
  have hoff : SameContents t t.recordingOff := { SameContents.refl t with }
  have hstart : SameContents s s.beginStep := { SameContents.refl s with }
  exact ⟨hstart.trans (h.contents.trans (hoff.undoAll l)),
    State.undoAll_pc (fun e he => (h.entries e he).savedPc) (absurd · hne), hcontrol.ctl, hcontrol.steps,
    State.undoAll_readOnly hchanges _ (d := .time) rfl, State.undoAll_readOnly hchanges _ (d := .timeh) rfl⟩

/-- What undoing a change leaves in `pc` rests on `pc` alone. -/
theorem State.undoChange_pc_congr {s t : State} (h : t.pc = s.pc) (c : Change) :
    (t.undoChange c).pc = (s.undoChange c).pc := by
  cases c with
  | store a w cells =>
    obtain ⟨_, _, hs⟩ := State.restoreCells_eq cells s
    obtain ⟨_, _, ht⟩ := State.restoreCells_eq cells t
    simp [State.undoChange, hs, ht, h]
  | _ => simp [State.undoChange, h]

/-- The entry of a boundary write, undone, brings back the machine it was made on (R663, R665). -/
theorem Records.undone {s t : State} (hstep : s.iter.step = none) (hrec : s.recording = true)
    (hroom : s.ring.length < s.cfg.backstepCapacity) (hs : s.memOk) (ht : Inv t) (h : Records s t) :
    ∃ c, t.ring = s.entryOf c :: s.ring ∧ changeOk c ∧
      let w := t.recordingOff.undoChange c
      SameContents s w ∧ w.pc = s.pc ∧
      t.undo = { w with ring := s.ring, recording := t.cfg.backstepEnabled, driver := .stopped .userStop } := by
  obtain ⟨c, hring, hpc, hback⟩ := h
  rw [State.record_ring_of_room hrec hroom] at hring
  have hsaved : (s.entryOf c).savedPc = none := by simp [State.entryOf, hstep]
  have hnone : (s.entryOf c).step = none := hstep
  have hoff : SameContents t t.recordingOff := { SameContents.refl t with }
  refine ⟨c, hring, ht.ringChanges (s.entryOf c) (hring ▸ List.mem_cons_self), (hback hs).trans (hoff.undoChange c),
    ?_, ?_⟩
  · exact (State.undoChange_pc_congr (s := t) (t := t.recordingOff) rfl c).trans hpc
  · rw [State.undo_of_cons hring, State.undone, State.applyInverse_of_no_savedPc hsaved, hnone, State.undoGroup_none,
      State.restoreCounts, if_neg (by simp [hnone])]
    rfl

/-- A write of the host at a boundary: a register set, or a raw write (R663, R680). -/
def HostWrite (s t : State) : Prop := (∃ l v, t = s.setLoc l v) ∨ ∃ a w v, t = s.rawWrite a w v

/-- A host's write that changes something is recorded and leaves the read-only registers and the control part (R52,
R84). -/
theorem HostWrite.spec {s t : State} (h : HostWrite s t) (hne : t ≠ s) : Records s t ∧ SameControl s t ∧
    (Inv s → Inv t) ∧ ∀ c : Csr, c.isReadOnly = true → t.csr.get c = s.csr.get c := by
  rcases h with ⟨l, v, rfl⟩ | ⟨a, w, v, rfl⟩
  · refine ⟨(s.setLoc_records l v).resolve_left hne, s.setLoc_sameControl l v, fun hs => hs.setLoc l v, fun c hc => ?_⟩
    cases l with
    | csr d => exact (congrArg (Csrs.get · c) (s.csrWrite_csr d _)).trans (csrWritten_get_of_readOnly s.csr d hc _)
    | _ => simp [State.setLoc]
  · exact ⟨(s.rawWrite_records a w v).resolve_left hne, s.rawWrite_sameControl a w v, fun hs => hs.rawWrite a w v,
      fun c _ => by rw [State.rawWrite_csr]⟩

/-- Settles O60: the entries an iteration records bring its start back when undone, and so does the one entry of a
boundary write. -/
theorem undoInvertsStep : Obligations.UndoInvertsStep := by
  refine ⟨fun s t hs hrun hrec h hend hroom => ?iteration, fun s t hs hstep hrec hroom hwrite hne => ?boundary⟩
  case iteration =>
    have ht : Inv t := stepKeepsInvariant s t hs h
    rw [step_of_running hrun] at h
    obtain ⟨l, hl, hlne⟩ := iterate_recorded hs hrec h hend hroom
    have hold : ∀ e ∈ s.ring, e.step ≠ some (s.seq + 1) := fun e he hnew =>
      absurd (hs.ringSteps e he _ hnew) (Nat.not_succ_le_self _)
    obtain ⟨hsame, hpc, hctl, hsteps, htime⟩ := hl.undone hlne ht
    dsimp only
    rw [State.undo_of_recorded hl hlne rfl hold, ← htime.1, ← htime.2, ← hctl, ← hsteps, State.showCounts_eq]
    exact ⟨hsame.x, hsame.f, hpc, hsame.acc, csr_of_undone hs hsame.csr, hsame.mem, hsame.text, hsame.heapTop, rfl,
      rfl, rfl, rfl, rfl, rfl⟩
  case boundary =>
    obtain ⟨hrecords, hcontrol, hinv, hro⟩ := HostWrite.spec hwrite hne
    obtain ⟨c, hring, hc, hsame, hpc, hundo⟩ :=
      hrecords.undone hstep hrec hroom ⟨hs.memCanonical, hs.textCanonical⟩ (hinv hs)
    have hundone := t.recordingOff.undoChange_sameControl c
    have hcsr : (t.recordingOff.undoChange c).csr = s.csr := Csrs.ext_get fun d => by
      cases hd : d.isReadOnly with
      | true => exact (t.recordingOff.undoChange_readOnly hc hd).trans (hro d hd)
      | false => exact hsame.csr d hd
    refine ⟨⟨_, hring, hstep, by simp [State.entryOf, hstep]⟩, ?_⟩
    dsimp only
    rw [hundo]
    exact ⟨hsame.x, hsame.f, hpc, hsame.acc, hcsr, hsame.mem, hsame.text, hsame.heapTop,
      hundone.cycles.trans hcontrol.cycles, hundone.instret.trans hcontrol.instret, rfl, hundone.ctl.trans hcontrol.ctl,
      hundone.steps.trans hcontrol.steps, rfl⟩

/-! ### Registers by number and by name (R51, R54, R58, R70, R86) -/

theorem numberIn_toNat {k : Nat} (r : BitVec k) : numberIn k r.toNat = some r := by
  simp [numberIn, r.isLt]

theorem numberIn_of_le {k n : Nat} (h : 2 ^ k ≤ n) : numberIn k n = none := if_neg (Nat.not_lt.mpr h)

theorem numberIn_eq_some_iff {k n : Nat} {r : BitVec k} : numberIn k n = some r ↔ r.toNat = n := by
  constructor
  · intro h
    unfold numberIn at h
    split at h
    · cases h
      exact Nat.mod_eq_of_lt ‹_›
    · cases h
  · rintro rfl
    exact numberIn_toNat r

theorem State.locOf_csr_iff (s : State) {n : Nat} {c : Csr} :
    s.locOf (.csr n) = some (.csr c) ↔ c.number.toNat = n := by
  simp [State.locOf, Option.bind_eq_some_iff, numberIn_eq_some_iff, csrOfNumber_eq_some_iff]

theorem State.locOf_csr_eq_none (s : State) {n : Nat} (h : ∀ c : Csr, c.number.toNat ≠ n) :
    s.locOf (.csr n) = none := by
  cases hn : s.locOf (.csr n) with
  | none => rfl
  | some l =>
    obtain ⟨c, -, rfl⟩ := Option.map_eq_some_iff.mp hn
    exact absurd (s.locOf_csr_iff.mp hn) (h c)

/-- The register that a name of one of the fixed kinds selects, in the order of `locOfName`. -/
def fixedLoc (name : String) : Option RegLoc :=
  if name = "pc" then some .pc
  else if name = "fp" then some (.gpr 8)
  else ((numberOf gprNames name).map .gpr).or (((numberOf xNames name).map .gpr).or
    (((numberOf fprNames name).map .fpr).or (((numberOf fNames name).map .fpr).or
      ((allCsrs.find? (fun c => c.name == name)).map .csr))))

theorem State.locOfName_eq (s : State) (name : String) :
    s.locOfName name = (fixedLoc name).or ((accFind s.acc name).map (fun _ => .acc name)) := by
  unfold State.locOfName fixedLoc
  split_ifs
  · rfl
  · rfl
  cases numberOf gprNames name with
  | some r => rfl
  | none =>
  cases numberOf xNames name with
  | some r => rfl
  | none =>
  cases numberOf fprNames name with
  | some r => rfl
  | none =>
  cases numberOf fNames name with
  | some r => rfl
  | none =>
  cases allCsrs.find? (fun c => c.name == name) with
  | some c => rfl
  | none => rfl

theorem State.locOf_named_of_fixedLoc (s : State) {name : String} {l : RegLoc} (h : fixedLoc name = some l) :
    s.locOf (.named name) = some l := by
  rw [State.locOf, State.locOfName_eq, h]
  rfl

theorem fixedLoc_gprNames : ∀ p ∈ gprNames.zipIdx, fixedLoc p.1 = some (.gpr (BitVec.ofNat 5 p.2)) := by decide

theorem fixedLoc_fprNames : ∀ p ∈ fprNames.zipIdx, fixedLoc p.1 = some (.fpr (BitVec.ofNat 5 p.2)) := by decide

theorem fixedLoc_numbered : ∀ i < 32, fixedLoc ("x" ++ toString i) = some (.gpr (BitVec.ofNat 5 i)) ∧
    fixedLoc ("f" ++ toString i) = some (.fpr (BitVec.ofNat 5 i)) := by decide

theorem fixedLoc_csr (c : Csr) : fixedLoc c.name = some (.csr c) := by
  cases c <;> decide

theorem numberOf_eq_none {names : List String} {name : String} (h : name ∉ names) : numberOf names name = none := by
  rw [numberOf, List.findIdx?_eq_none_iff.mpr fun n hn => by simpa using fun he : n = name => h (he ▸ hn)]
  rfl

/-- A name of none of the fixed kinds selects at most an accumulator (R58; log 21). -/
theorem fixedLoc_eq_none {name : String}
    (h : name ∉ ["pc", "fp"] ++ gprNames ++ xNames ++ fprNames ++ fNames ++ allCsrs.map Csr.name) :
    fixedLoc name = none := by
  simp only [List.mem_append, not_or] at h
  obtain ⟨⟨⟨⟨⟨hspecial, hgpr⟩, hx⟩, hfpr⟩, hf⟩, hcsr⟩ := h
  have hfind : allCsrs.find? (fun c => c.name == name) = none := List.find?_eq_none.mpr fun c hc hn =>
    hcsr (List.mem_map.mpr ⟨c, hc, beq_iff_eq.mp hn⟩)
  rw [fixedLoc, if_neg fun he => hspecial (by simp [he]), if_neg fun he => hspecial (by simp [he]),
    numberOf_eq_none hgpr, numberOf_eq_none hx, numberOf_eq_none hfpr, numberOf_eq_none hf, hfind]
  rfl

theorem State.locOf_named_of_not_fixed (s : State) {name : String} (h : fixedLoc name = none) :
    s.locOf (.named name) = if (accFind s.acc name).isSome then some (.acc name) else none := by
  rw [State.locOf, State.locOfName_eq, h]
  cases accFind s.acc name <;> rfl

/-! ### Gets and sets (R51, R52, R680) -/

/-- A host value cut to a word and widened again (log 26). -/
theorem setWidth_32_64 (v : DWord) : (v.setWidth 32).setWidth 64 = v &&& 0xFFFFFFFF := by
  apply BitVec.eq_of_toNat_eq
  rw [BitVec.toNat_setWidth, BitVec.toNat_setWidth, BitVec.toNat_and]
  exact (Nat.mod_eq_of_lt (by omega)).trans (Nat.and_two_pow_sub_one_eq_mod v.toNat 32).symm

theorem accFind_accPut (l : List (String × Word)) (n m : String) (v : Word) :
    accFind (accPut l n v) m = if m = n then (accFind l n).map (fun _ => v) else accFind l m := by
  induction l with
  | nil => simp [accPut, accFind]
  | cons p rest ih =>
    obtain ⟨k, w⟩ := p
    by_cases hk : k = n
    · subst hk
      by_cases hm : k = m
      · simp [accPut, accFind, hm]
      · simp [accPut, accFind, hm, Ne.symm hm]
    · by_cases hm : k = m
      · subst hm
        simp [accPut, accFind, hk]
      · simp [accPut, accFind, hk, hm, ih]

section

variable (s : State)

theorem State.getLoc_setLoc_gpr (r : Reg) (v : DWord) :
    (s.setLoc (.gpr r) v).getLoc (.gpr r) = if r = 0 then 0 else v &&& 0xFFFFFFFF := by
  refine (congrArg (BitVec.setWidth 64) (s.readX_writeX r r (v.setWidth 32))).trans ?_
  by_cases h : r = 0
  · subst h
    rfl
  · rw [if_pos ⟨rfl, h⟩, if_neg h, setWidth_32_64]

theorem State.getLoc_setLoc_fpr (r : Reg) (v : DWord) : (s.setLoc (.fpr r) v).getLoc (.fpr r) = v :=
  (s.readF_writeF r r v).trans (if_pos rfl)

theorem State.getLoc_setLoc_pc (v : DWord) : (s.setLoc .pc v).getLoc .pc = v &&& 0xFFFFFFFF :=
  (congrArg (BitVec.setWidth 64) (s.writePc_pc (v.setWidth 32))).trans (setWidth_32_64 v)

theorem State.getLoc_setLoc_acc {n : String} (h : (accFind s.acc n).isSome = true) (v : DWord) :
    (s.setLoc (.acc n) v).getLoc (.acc n) = v &&& 0xFFFFFFFF := by
  obtain ⟨old, hold⟩ := Option.isSome_iff_exists.mp h
  simp only [State.setLoc, State.getLoc, State.writeAcc_acc, accFind_accPut, if_true, hold, Option.map_some,
    Option.getD_some, setWidth_32_64]

/-- A set of one register shows in no other register, but for CSRs that share their bits (R52, R82). -/
theorem State.getLoc_setLoc_of_ne {l k : RegLoc} (v : DWord) (hne : k ≠ l) (hcsr : ¬ ∃ c d, l = .csr c ∧ k = .csr d) :
    (s.setLoc l v).getLoc k = s.getLoc k := by
  cases k with
  | gpr r =>
    refine congrArg (BitVec.setWidth 64) ?_
    cases l with
    | gpr q => exact (s.readX_writeX q r _).trans (if_neg fun h => hne (congrArg RegLoc.gpr h.1))
    | _ => exact State.readX_congr (by simp [State.setLoc]) r
  | pc =>
    refine congrArg (BitVec.setWidth 64) ?_
    cases l with
    | pc => exact absurd rfl hne
    | _ => simp [State.setLoc]
  | fpr r =>
    cases l with
    | fpr q => exact (s.readF_writeF q r v).trans (if_neg fun h => hne (congrArg RegLoc.fpr h))
    | _ => exact State.readF_congr (by simp [State.setLoc]) r
  | csr d =>
    refine congrArg (BitVec.setWidth 64) ?_
    cases l with
    | csr c => exact absurd ⟨c, d, rfl, rfl⟩ hcsr
    | _ => simp [State.setLoc, State.csrRead_eq]
  | acc m =>
    cases l with
    | acc n =>
      have hmn : m ≠ n := fun h => hne (congrArg RegLoc.acc h)
      simp [State.setLoc, State.getLoc, State.writeAcc_acc, accFind_accPut, hmn]
    | _ => simp [State.setLoc, State.getLoc]

end

/-! ### Commands and the Driver's state (R621, R680, R683) -/

/-- The Driver takes a run or a step command (R621). -/
def State.Paused (s : State) : Prop := s.driver = .ready ∨ s.driver = .stopped .breakpoint ∨
  s.driver = .stopped .maxSteps ∨ s.driver = .stopped .userStop ∨ s.driver = .stopped .stepDone

/-- The Driver is running or stepping. -/
def State.Busy (s : State) : Prop := s.driver = .running ∨ ∃ n, s.driver = .stepping n

theorem State.resumable_iff (s : State) : s.resumable = true ↔ s.Paused := by
  unfold State.resumable State.Paused
  split <;> simp_all

theorem State.active_iff (s : State) : s.active = true ↔ s.Busy := by
  unfold State.active State.Busy
  split <;> simp_all

theorem whilePaused_of_busy {s : State} (h : s.Busy) (t : State) : whilePaused s t = .refused .hostWriteWhileRunning :=
  if_pos (s.active_iff.mpr h)

theorem whilePaused_of_not_busy {s : State} (h : ¬ s.Busy) (t : State) : whilePaused s t = .next t :=
  if_neg (mt s.active_iff.mp h)

/-- The addresses of an access, by their offsets. -/
theorem within_iff {a b : Word} {w : Width} : Within a (bytesOf w) b ↔ ∃ i < bytesOf w, a + BitVec.ofNat 32 i = b := by
  constructor
  · exact fun h => ⟨_, h, sub_add_ofNat a b rfl⟩
  · rintro ⟨i, hi, rfl⟩
    have hle := bytesOf_le w
    have hoff : a + BitVec.ofNat 32 i - a = BitVec.ofNat 32 i := by simp
    rw [Within, hoff, BitVec.toNat_ofNat, Nat.mod_eq_of_lt (by omega)]
    exact hi

theorem State.deviceMayWrite_iff (s : State) (a : Word) (w : Width) :
    s.deviceMayWrite a w = true ↔ ∀ b, Within a (bytesOf w) b → classAt s.cfg.memMap b = .mmio := by
  simp [State.deviceMayWrite, within_iff]

section

variable {s : State}

theorem applyEvent_run_of_paused (h : s.Paused) : applyEvent .run s = .next { s with driver := .running } :=
  if_pos (s.resumable_iff.mpr h)

theorem applyEvent_step_of_paused (h : s.Paused) {n : Nat} (hn : 1 ≤ n) :
    applyEvent (.step n) s = .next { s with driver := .stepping n } :=
  if_pos (by simp [s.resumable_iff.mpr h, hn])

theorem applyEvent_step_zero : applyEvent (.step 0) s = .refused .commandNotAccepted := if_neg (by simp)

theorem applyEvent_run_of_not_paused (h : ¬ s.Paused) : applyEvent .run s = .refused .commandNotAccepted :=
  if_neg (mt s.resumable_iff.mp h)

theorem applyEvent_step_of_not_paused (h : ¬ s.Paused) (n : Nat) :
    applyEvent (.step n) s = .refused .commandNotAccepted :=
  if_neg fun ht => h (s.resumable_iff.mp (Bool.and_eq_true_iff.mp ht).1)

theorem applyEvent_register_of_idle {k : IrqKind} (h : s.ctl.irq k = none) (p : Word) : applyEvent (.register k p) s =
    .next { s with ctl := { s.ctl.setIrq k (some p) with checkRequested := true },
                   outputs := .registered k true :: s.outputs } := by
  rw [applyEvent, Controller.registerIrq_of_idle h]
  rfl

theorem applyEvent_register_of_pending {k : IrqKind} (h : s.ctl.irq k ≠ none) (p : Word) :
    applyEvent (.register k p) s = .next { s with outputs := .registered k false :: s.outputs } := by
  obtain ⟨q, hq⟩ := Option.ne_none_iff_exists'.mp h
  rw [applyEvent, Controller.registerIrq_of_pending hq]
  rfl

theorem applyEvent_setReg_of_busy (h : s.Busy) (r : RegSel) (v : DWord) :
    applyEvent (.setReg r v) s = .refused .hostWriteWhileRunning := by
  unfold applyEvent
  dsimp only
  split <;> exact whilePaused_of_busy h _

theorem applyEvent_setReg_of_some (h : ¬ s.Busy) {r : RegSel} {l : RegLoc} (hl : s.locOf r = some l) (v : DWord) :
    applyEvent (.setReg r v) s = .next ((s.setLoc l v).emit (.value (s.getLoc l))) := by
  simp only [applyEvent, hl, whilePaused_of_not_busy h]

theorem applyEvent_setReg_of_none (h : ¬ s.Busy) {r : RegSel} (hl : s.locOf r = none) (v : DWord) :
    applyEvent (.setReg r v) s = .next (s.emit .absent) := by
  simp only [applyEvent, hl, whilePaused_of_not_busy h]

theorem applyEvent_getReg_of_some {r : RegSel} {l : RegLoc} (hl : s.locOf r = some l) :
    applyEvent (.getReg r) s = .next (s.emit (.value (s.getLoc l))) := by
  simp only [applyEvent, hl]

theorem applyEvent_getReg_of_none {r : RegSel} (hl : s.locOf r = none) :
    applyEvent (.getReg r) s = .next (s.emit .absent) := by
  simp only [applyEvent, hl]

theorem applyEvent_deviceWrite_of_mmio {a : Word} {w : Width}
    (h : ∀ b, Within a (bytesOf w) b → classAt s.cfg.memMap b = .mmio) (v : Word) :
    applyEvent (.deviceWrite a w v) s = .next (s.rawWrite a w v) :=
  if_pos ((s.deviceMayWrite_iff a w).mpr h)

theorem applyEvent_deviceWrite_of_not_mmio {a b : Word} {w : Width} (hb : Within a (bytesOf w) b)
    (h : classAt s.cfg.memMap b ≠ .mmio) (v : Word) :
    applyEvent (.deviceWrite a w v) s = .refused .deviceWriteOutsideMmio :=
  if_neg fun hm => h ((s.deviceMayWrite_iff a w).mp hm b hb)

end

/-- Settles O56: each command by the Driver's state, each name by its place in its list, each get after each set by the
law of its bank. -/
theorem hostCommands : Obligations.HostCommands := by
  intro s paused busy
  have hgpr (r : Reg) : s.locOf (.gpr r.toNat) = some (.gpr r) := by simp [State.locOf, numberIn_toNat]
  have hfpr (r : Reg) : s.locOf (.fpr r.toNat) = some (.fpr r) := by simp [State.locOf, numberIn_toNat]
  refine ⟨fun h => ⟨applyEvent_run_of_paused h, fun n hn => applyEvent_step_of_paused h hn⟩,
    fun _ => applyEvent_step_zero, fun h => ⟨applyEvent_run_of_not_paused h, applyEvent_step_of_not_paused h⟩, rfl, rfl,
    fun k p h => applyEvent_register_of_idle h p, fun k p h => applyEvent_register_of_pending h p, State.undo_of_nil,
    fun r => ⟨hgpr r, hfpr r⟩, fun n hn => ⟨?tooGreatGpr, ?tooGreatFpr⟩, fun n c => s.locOf_csr_iff,
    fun n h => s.locOf_csr_eq_none h, ?special, fun i n hi => ?gprNames, fun i n hi => ?fprNames,
    fun i hi => ⟨s.locOf_named_of_fixedLoc (fixedLoc_numbered i hi).1,
      s.locOf_named_of_fixedLoc (fixedLoc_numbered i hi).2⟩,
    fun c => s.locOf_named_of_fixedLoc (fixedLoc_csr c), fun n hn => s.locOf_named_of_not_fixed (fixedLoc_eq_none hn),
    fun r v => ⟨rfl, rfl, s.getLoc_setLoc_gpr r v⟩, fun r v => ⟨rfl, rfl, s.getLoc_setLoc_fpr r v⟩,
    fun v => ⟨rfl, rfl, s.getLoc_setLoc_pc v⟩,
    fun c v => ⟨congrArg (BitVec.setWidth 64) (s.csrRead_eq c), rfl, s.csrWrite_csr c _⟩,
    fun n v => ⟨rfl, rfl, fun h => s.getLoc_setLoc_acc h v⟩, fun l k v => s.getLoc_setLoc_of_ne v,
    fun h => ⟨whilePaused_of_busy h _, whilePaused_of_busy h _, applyEvent_setReg_of_busy h,
      fun a w v => whilePaused_of_busy h _⟩,
    fun h => ⟨whilePaused_of_not_busy h _, whilePaused_of_not_busy h _,
      fun r v l hl => applyEvent_setReg_of_some h hl v, fun r v hl => applyEvent_setReg_of_none h hl v,
      fun a w v => whilePaused_of_not_busy h _⟩,
    fun r l => applyEvent_getReg_of_some, fun r => applyEvent_getReg_of_none, fun a w => rfl,
    fun a w v h => applyEvent_deviceWrite_of_mmio h v, fun a w v b => (applyEvent_deviceWrite_of_not_mmio · · v)⟩
  case tooGreatGpr | tooGreatFpr => simp [State.locOf, numberIn_of_le (k := 5) hn]
  case special =>
    exact ⟨rfl, s.locOf_named_of_fixedLoc (by decide), s.locOf_named_of_fixedLoc (by decide)⟩
  case gprNames =>
    exact s.locOf_named_of_fixedLoc (fixedLoc_gprNames (n, i) (List.mk_mem_zipIdx_iff_getElem?.mpr hi))
  case fprNames =>
    exact s.locOf_named_of_fixedLoc (fixedLoc_fprNames (n, i) (List.mk_mem_zipIdx_iff_getElem?.mpr hi))

end Sys2Proof.Machine
